-- ==== Sys2Proof/Word.lean ====
section
/-! DEFINITION. The word types of PPR-PE: the u8 of every frame and response byte (R8, "byte width"),
the 64-bit request word (R64) and the 32-bit STATUS view (R31). -/

namespace Sys2Proof

/-- A `u8`: a frame byte, a response byte, an address, an opcode base, a count (R9, R64). -/
abbrev Byte := BitVec 8

/-- The request word `REQ64` (R64). -/
abbrev Word64 := BitVec 64

/-- The status view `STATUS32` (R31, R59). -/
abbrev Word32 := BitVec 32

end Sys2Proof
end

