-- ==== Sys2Proof/Syntax.lean ====
section
/-! DEFINITION. The four request forms of spec/opcode_table.json (R68, R69), one constructor a row.
A request is PPR-PE's only instruction: the block fetches none (R57, R71). -/

namespace Sys2Proof

/-- `TransactionPolicy`, bit 58 of the request word: 0 `Default`, 1 `AckAware` (R66). -/
inductive Policy where
  | default
  | ackAware
deriving DecidableEq, Repr

/-- The four request forms. Arguments stand in the order of the word's fields (R64), high bits first;
`b0` is the caller's byte 0, which no form uses (R63). -/
inductive Instr where
  /-- `EXEC.W` (R80): no response; `N = 0` in the encoding. -/
  | execW (policy : Policy) (base addr b0 opc arg1 arg2 : Byte)
  /-- `EXEC.R` (R81): a response of exactly `n` bytes. -/
  | execR (policy : Policy) (n base addr b0 opc arg1 arg2 : Byte)
  /-- `EXEC.T` (R82): a response up to a `0x00` and one byte more; `n` is ignored (R67). -/
  | execT (policy : Policy) (n base addr b0 opc arg1 arg2 : Byte)
  /-- `VALIDATE` (R83): a response of one byte, compared with `addr`; `N = 1` in the encoding. -/
  | validate (policy : Policy) (base addr b0 opc arg1 arg2 : Byte)
deriving DecidableEq, Repr

end Sys2Proof
end

