-- ==== Sys2Proof/Config.lean ====
section
/-! DEFINITION. The parameters of R8 (an OPEN row is an argument of the model, so it has no value here)
and the answers of the external ports (R123, R124), which are free. -/

namespace Sys2Proof

/-- The control lines of R40. The block drives and reads `frame`, reads `ack`, and never touches `irq` (R43). -/
inductive Line where
  | frame
  | ack
  | irq
deriving DecidableEq, Repr

/-- A parameter with one value for each policy (R8: "`p` ranges over the policies"). -/
structure PerPolicy where
  default : Nat
  ackAware : Nat
deriving DecidableEq, Repr

/-- The value of a per-policy parameter at a policy. -/
def PerPolicy.at (v : PerPolicy) : Policy → Nat
  | .default => v.default
  | .ackAware => v.ackAware

/-- The OPEN parameters of R8. `capExtra` is `CAP - 40`, so every term of this type has
`40 <= CAP <= 65535`. Times are natural numbers of microseconds (R9); a level is `true` for high. -/
structure Params where
  capExtra : Fin 65496
  frameAssertLevel : Bool
  tSettle : Nat
  tAck1 : PerPolicy
  tAck2 : PerPolicy
  tByte : PerPolicy
  noackWriteValid : Bool
deriving DecidableEq, Repr

/-- `CAP`, the capacity of the response buffer in bytes (R8). -/
def Params.cap (c : Params) : Nat := c.capExtra.val + 40

/-- `FRAME_LEN` (R8). -/
def frameLen : Nat := 4

/-- `TERM`, the terminator byte (R8). -/
def termByte : Byte := 0x00#8

/-- `ACK_ASSERT_LEVEL`: low (R8). -/
def ackAssertLevel : Bool := false

namespace Config

/-- OPEN (R8): `CAP - 40`. -/
opaque capExtra : Fin 65496
/-- OPEN (R8): the electrical level of the asserted frame line. -/
opaque frameAssertLevel : Bool
/-- OPEN (R8): the settle window. -/
opaque tSettle : Nat
/-- OPEN (R8): the short acknowledge wait. -/
opaque tAck1 : Policy → Nat
/-- OPEN (R8): the long acknowledge wait. -/
opaque tAck2 : Policy → Nat
/-- OPEN (R8): the per-byte timeout. -/
opaque tByte : Policy → Nat
/-- OPEN (R8, R98): `P_NOACK_WRITE_VALID`. -/
opaque noackWriteValid : Bool

/-- The parameters of the machine whose reset state is `State.reset`: every one of them open. -/
def params : Params where
  capExtra := capExtra
  frameAssertLevel := frameAssertLevel
  tSettle := tSettle
  tAck1 := ⟨tAck1 .default, tAck1 .ackAware⟩
  tAck2 := ⟨tAck2 .default, tAck2 .ackAware⟩
  tByte := ⟨tByte .default, tByte .ackAware⟩
  noackWriteValid := noackWriteValid

/-- Free value: the answer of `TransportReady()` as the `n`-th port call of the run (R124: "any Bool"). -/
opaque freeReady : Nat → Bool
/-- Free value: the answer of `ReadLine(l)` as the `n`-th port call of the run (R124: "any Bool"). -/
opaque freeLine : Nat → Line → Bool
/-- Free value: whether `Exchange` answers `Ok`, as the `n`-th port call of the run (R124: "`Ok` or `Err`"). -/
opaque freeExchange : Nat → Bool
/-- Free value: the answer of `ReadByte`, as the `n`-th port call of the run; `none` is `Err`
(R124: "`Ok(b)` for any u8 `b`, or `Err`"). -/
opaque freeByte : Nat → Option Byte
/-- Free value: how far the clock has moved since the last `Now()` answer, in microseconds, as the
`n`-th port call of the run (R123, monotonicity). A natural number, so that the clock never runs backward. -/
opaque freeElapsed : Nat → Nat
/-- Free value: the port call of the run from which on the clock answers at least `b` microseconds (R123,
fairness: "for every bound `B` ... an answer `>= B` after finitely many calls"). Which call that is, is open. -/
opaque freeReach : Nat → Nat

end Config

end Sys2Proof
end

