-- ==== Sys2Proof/WellFormed.lean ====
section
/-! DEFINITION. Which request terms the request map admits, at a response capacity `cap` (R68, R69):
the destination sum fits a byte, and a fixed count lies between 1 and the capacity. -/

namespace Sys2Proof

/-- `ADDR + BASE <= 255` (R68): the destination address is one frame byte. -/
def destinationFits (base addr : Byte) : Bool :=
  decide (addr.toNat + base.toNat ≤ 255)

/-- The conditions of the request map (R69) beside mask and match. -/
def Instr.wf (cap : Nat) : Instr → Bool
  | .execW _ base addr _ _ _ _ => destinationFits base addr
  | .execR _ n base addr _ _ _ _ =>
    decide (1 ≤ n.toNat) && decide (n.toNat ≤ cap) && destinationFits base addr
  | .execT _ _ base addr _ _ _ _ => destinationFits base addr
  | .validate _ base addr _ _ _ _ => destinationFits base addr

end Sys2Proof
end

