-- ==== Sys2Proof/Decode.lean ====
section
/-! DEFINITION. The request word `REQ64`: its fields (R64), the request map (R68, R69), and the
encoder, written from the same table of fields. -/

namespace Sys2Proof

/-- `POLICY` as its bit (R66). -/
def Policy.bit : Policy → BitVec 1
  | .default => 0#1
  | .ackAware => 1#1

/-- The policy a bit selects (R66). -/
def Policy.ofBit (b : BitVec 1) : Policy :=
  if b = 1#1 then .ackAware else .default

/-- `KIND = 00`: `EXEC` (R65). -/
def kindExec : BitVec 2 := 0#2
/-- `KIND = 01`: `VALIDATE` (R65). -/
def kindValidate : BitVec 2 := 1#2
/-- `MODE = 00`: no response (R67). -/
def modeW : BitVec 2 := 0#2
/-- `MODE = 01`: fixed count (R67). -/
def modeR : BitVec 2 := 1#2
/-- `MODE = 10`: terminator (R67). -/
def modeT : BitVec 2 := 2#2

/-- `KIND`, bits 63:62 (R64). -/
def fieldKind (w : Word64) : BitVec 2 := w.extractLsb' 62 2
/-- `RSV`, bits 61:59 (R64). -/
def fieldRsv (w : Word64) : BitVec 3 := w.extractLsb' 59 3
/-- `POLICY`, bit 58 (R64). -/
def fieldPolicy (w : Word64) : Policy := Policy.ofBit (w.extractLsb' 58 1)
/-- `MODE`, bits 57:56 (R64). -/
def fieldMode (w : Word64) : BitVec 2 := w.extractLsb' 56 2
/-- `N`, bits 55:48 (R64). -/
def fieldN (w : Word64) : Byte := w.extractLsb' 48 8
/-- `BASE`, bits 47:40 (R64). -/
def fieldBase (w : Word64) : Byte := w.extractLsb' 40 8
/-- `ADDR`, bits 39:32 (R64). -/
def fieldAddr (w : Word64) : Byte := w.extractLsb' 32 8
/-- `B0`, bits 31:24 (R64). -/
def fieldB0 (w : Word64) : Byte := w.extractLsb' 24 8
/-- `OPC`, bits 23:16 (R64). -/
def fieldOpc (w : Word64) : Byte := w.extractLsb' 16 8
/-- `ARG1`, bits 15:8 (R64). -/
def fieldArg1 (w : Word64) : Byte := w.extractLsb' 8 8
/-- `ARG2`, bits 7:0 (R64). -/
def fieldArg2 (w : Word64) : Byte := w.extractLsb' 0 8

/-- The rows of the request map, tried in the order of R68; `none` where no row matches. -/
def decodeRow (w : Word64) : Option Instr :=
  if w &&& 0xFBFF000000000000#64 = 0x0000000000000000#64 then
    some (.execW (fieldPolicy w) (fieldBase w) (fieldAddr w) (fieldB0 w) (fieldOpc w) (fieldArg1 w) (fieldArg2 w))
  else if w &&& 0xFB00000000000000#64 = 0x0100000000000000#64 then
    some (.execR (fieldPolicy w) (fieldN w) (fieldBase w) (fieldAddr w) (fieldB0 w) (fieldOpc w) (fieldArg1 w) (fieldArg2 w))
  else if w &&& 0xFB00000000000000#64 = 0x0200000000000000#64 then
    some (.execT (fieldPolicy w) (fieldN w) (fieldBase w) (fieldAddr w) (fieldB0 w) (fieldOpc w) (fieldArg1 w) (fieldArg2 w))
  else if w &&& 0xFBFF000000000000#64 = 0x4101000000000000#64 then
    some (.validate (fieldPolicy w) (fieldBase w) (fieldAddr w) (fieldB0 w) (fieldOpc w) (fieldArg1 w) (fieldArg2 w))
  else none

/-- R68: `zext_9(ADDR) + zext_9(BASE) > 255` makes a request `INVALID`; this is its negation. -/
def sumLegal (base addr : Byte) : Bool :=
  decide ((addr.zeroExtend 9 + base.zeroExtend 9).toNat ≤ 255)

/-- R68: `EXEC.R` needs `1 <= N <= CAP`. -/
def countLegal (cap : Nat) (n : Byte) : Bool :=
  decide (1 ≤ n.toNat) && decide (n.toNat ≤ cap)

/-- The conditions R68 tests after the row is chosen. -/
def rowCondition (cap : Nat) : Instr → Bool
  | .execW _ base addr _ _ _ _ => sumLegal base addr
  | .execR _ n base addr _ _ _ _ => countLegal cap n && sumLegal base addr
  | .execT _ _ base addr _ _ _ _ => sumLegal base addr
  | .validate _ base addr _ _ _ _ => sumLegal base addr

/-- `decode(w)` of R68: one of the four forms, or `none` for `INVALID`. Total on every word. -/
def decode (cap : Nat) (w : Word64) : Option Instr :=
  (decodeRow w).filter (rowCondition cap)

/-- The word with the fields of R64, `RSV = 0`, high bits first. -/
def encodeFields (kind : BitVec 2) (policy : Policy) (mode : BitVec 2)
    (n base addr b0 opc arg1 arg2 : Byte) : Word64 :=
  kind ++ 0#3 ++ policy.bit ++ mode ++ n ++ base ++ addr ++ b0 ++ opc ++ arg1 ++ arg2

/-- The request word of a form (R72: the assembler builds the word from the fields). -/
def encode : Instr → Word64
  | .execW policy base addr b0 opc arg1 arg2 =>
    encodeFields kindExec policy modeW 0#8 base addr b0 opc arg1 arg2
  | .execR policy n base addr b0 opc arg1 arg2 =>
    encodeFields kindExec policy modeR n base addr b0 opc arg1 arg2
  | .execT policy n base addr b0 opc arg1 arg2 =>
    encodeFields kindExec policy modeT n base addr b0 opc arg1 arg2
  | .validate policy base addr b0 opc arg1 arg2 =>
    encodeFields kindValidate policy modeR 1#8 base addr b0 opc arg1 arg2

/-- A table word as a request word: the low `nbits` bits of `w`, every bit above them 0; `none` when
that is no 64-bit word. -/
def tableWord (nbits w : Nat) : Option Word64 :=
  if w % 2 ^ nbits < 2 ^ 64 then some (BitVec.ofNat 64 (w % 2 ^ nbits)) else none

/-- The decoder on the opcode table's own numbering of bits, at the machine's `CAP`. -/
def decodeTableWord (nbits w : Nat) : Option Instr :=
  match tableWord nbits w with
  | some word => decode Config.params.cap word
  | none => none

end Sys2Proof
end

