-- ==== Sys2Proof/Machine/State.lean ====
section
/-! DEFINITION. The state record of PPR-PE (R18), its codes (R21, R115), the events of TRACE (R38), the
outcomes that stop a run, and the reset state (R130). After the record's own fields stand the fields of
the MODEL: the parameters, the scripted answers of the environment, and the host's actions and reads. -/

namespace Sys2Proof.Machine

/-- The states of the state machine (R21). -/
inductive Phase where
  | idle | faDrive | faVerify | xmit | ackW1 | ackW2 | read | deassert | complete | failed
deriving DecidableEq, Repr

/-- The encoding of `ST` (R21). -/
def Phase.code : Phase → BitVec 4
  | .idle => 0#4
  | .faDrive => 1#4
  | .faVerify => 2#4
  | .xmit => 3#4
  | .ackW1 => 4#4
  | .ackW2 => 5#4
  | .read => 6#4
  | .deassert => 7#4
  | .complete => 8#4
  | .failed => 9#4

/-- The failure codes (R115). -/
inductive FailCode where
  | none | invalidArgument | busUnavailable | frameAssertFailure | transmitFailure
  | ackTimeout | readTruncated | bufferOverflow
deriving DecidableEq, Repr

/-- The number of a failure code in `ERR` (R115). -/
def FailCode.code : FailCode → BitVec 4
  | .none => 0#4
  | .invalidArgument => 1#4
  | .busUnavailable => 2#4
  | .frameAssertFailure => 3#4
  | .transmitFailure => 4#4
  | .ackTimeout => 5#4
  | .readTruncated => 6#4
  | .bufferOverflow => 7#4

/-- The latched request fields `REQ.*` (R20). `kind` and `mode` are kept as bits, since an illegal word's
reserved values are latched too (R75). -/
structure Request where
  kind : BitVec 2
  policy : Policy
  mode : BitVec 2
  n : Byte
  base : Byte
  addr : Byte
  opc : Byte
  arg1 : Byte
  arg2 : Byte
deriving DecidableEq, Repr

/-- One port call with its arguments and its answer (R38). -/
inductive Event where
  /-- `rdy=b` -/
  | ready (answer : Bool)
  /-- `sl(l,v)` -/
  | setLine (line : Line) (level : Bool)
  /-- `rl(l)=v` -/
  | readLine (line : Line) (answer : Bool)
  /-- `xch(b0,b1,b2,b3)=Ok|Err`; `ok` is true for `Ok` -/
  | exchange (b0 b1 b2 b3 : Byte) (ok : Bool)
  /-- `rb(t)=b|Err`; `none` is `Err` -/
  | readByte (timeout : Nat) (answer : Option Byte)
  /-- `now=t` -/
  | now (answer : Nat)
deriving DecidableEq, Repr

/-- A byte space of R40, `FRAME` or `RESP`: the written cells, addresses strictly rising. An address that
is not listed holds `⊥`, "the value of a cell nothing has written" (R10). -/
abbrev Memory := List Host.Cell

/-- The answers the transport, the plate and the clock will give, one list for each port, the next answer
first (R6: "their answers are free inputs"). Where a list has run out the answer is a free value of
Config. `elapsed` holds how far the clock moves before each `Now()`. -/
structure Env where
  ready : List Bool
  frameLine : List Bool
  ackLine : List Bool
  exchange : List Bool
  byte : List (Option Byte)
  elapsed : List Nat
deriving DecidableEq, Repr

/-- What the host may do (R127), in a list in which one entry is one slot between two steps. -/
inductive HostInput where
  /-- present a request word now (R75, R76) -/
  | request (w : Word64)
  /-- assert reset (R130) -/
  | reset
  /-- read `STATUS` (R31) -/
  | readStatus
  /-- read `RESP[i]` (R41) -/
  | readResp (i : Nat)
  /-- do nothing for one step -/
  | idle
  /-- do nothing until the block is quiescent (R133) -/
  | await
deriving DecidableEq, Repr

/-- What a host read gave back (R127, last column). -/
inductive HostReply where
  | status (word : Word32)
  | resp (i : Nat) (byte : Byte)
deriving DecidableEq, Repr

/-- The state of PPR-PE (R18). The last four fields are the MODEL's own: R18 counts the parameters, the
oracle answers and the host's data as no state of the block, and the host's `step` has no other argument
to take them from. No step writes `cfg`; `env` and `host` only lose entries from the front; `replies`
only grows. -/
structure State where
  /-- `ST`, 4 bits (R21) -/
  st : BitVec 4
  /-- `REQ.*` (R20); `none` is `⊥` in every field -/
  req : Option Request
  /-- `FRAME[0..3]` (R32) -/
  frame : Memory
  /-- `RESP[0..CAP-1]` (R33) -/
  resp : Memory
  /-- `COUNT`, 16 bits (R34) -/
  count : BitVec 16
  /-- `VALID` (R24) -/
  valid : Bool
  /-- `ERR`, 4 bits (R25) -/
  err : BitVec 4
  /-- `ACK1_TO` (R26) -/
  ack1TO : Bool
  /-- `ACK2_TO` (R26) -/
  ack2TO : Bool
  /-- `PRECHECK_WARN` (R27) -/
  precheckWarn : Bool
  /-- `SAW_TERM` (R28) -/
  sawTerm : Bool
  /-- `MATCH` (R29) -/
  matched : Bool
  /-- `FAULT` (R30) -/
  fault : Bool
  /-- `FRAME_OUT` (R35) -/
  frameOut : Bool
  /-- `DL` (R36), microseconds; `none` is `⊥` -/
  dl : Option Nat
  /-- `TRACE` (R38), oldest event first -/
  trace : List Event
  /-- the MODEL's: the parameters of R8 -/
  cfg : Params
  /-- the MODEL's: the environment's scripted answers -/
  env : Env
  /-- the MODEL's: what the host does next, one entry a step -/
  host : List HostInput
  /-- the MODEL's: what the host's reads gave back, oldest first -/
  replies : List HostReply
deriving DecidableEq, Repr

/-- The reasons a run stops with a fault. -/
inductive Fault where
  /-- R117: `FAULT = 1` after a request while busy, so no step is enabled until reset (R30, R76). Raised by
  a block step and by a request presented in such a state. Safe: the spec gives the run no meaning. -/
  | concurrentRequest
  /-- R117: `ST` in 10..15 or `ERR` in 8..15 (R23, 93_implementation_defined.md U2, U3). Raised by every
  step but reset. Safe: no rule reaches such a state. -/
  | reservedState
  /-- R117: a read of a `⊥` cell or field, or a host read of `RESP[i]` with `i >= COUNT`. Safe. -/
  | unwrittenRead
  /-- R41: an access to a byte space outside its size. No rule makes one; raised only in states no run
  reaches. Safe. -/
  | outsideSpace
  /-- `ST = READ` with `MODE` neither `R` nor `T`: R104 and R105 cover no other mode and R97 never enters
  it. Raised only in states no run reaches. Safe. -/
  | noReadRule
deriving DecidableEq, Repr

/-- The reasons a step is refused. -/
inductive Refusal where
  /-- an instruction of the table that has no meaning yet. Safe. -/
  | notModelled (mnemonic : String)
  /-- R41: a host read of `RESP[i]` with `i >= CAP` "is refused: it has no meaning". Raised by the host's
  read. Safe. -/
  | respIndexOutsideSpace
deriving DecidableEq, Repr

/-- What a step answers. -/
abbrev Result := Host.Outcome State Fault Refusal

/-- An environment that has scripted no answer: every answer is a free value of Config. -/
def Env.free : Env := ⟨[], [], [], [], [], []⟩

/-- The state after reset (R18, R130), with an empty TRACE, an unscripted environment and a host that
does nothing. -/
def State.reset : State where
  st := Phase.idle.code
  req := none
  frame := []
  resp := []
  count := 0#16
  valid := false
  err := FailCode.none.code
  ack1TO := false
  ack2TO := false
  precheckWarn := false
  sawTerm := false
  matched := false
  fault := false
  frameOut := false
  dl := none
  trace := []
  cfg := Config.params
  env := Env.free
  host := []
  replies := []

end Sys2Proof.Machine
end

