-- ==== Sys2Proof/Machine/Ops.lean ====
section
/-! DEFINITION. The named operations over the byte spaces (R11, R41), the ports (R12, R123, R124) and the
state register, and failing: `fail` and `raise`, which are this block's taking of an exception (R13, R120). -/

namespace Sys2Proof.Machine

/-! ### Byte spaces -/

/-- The byte in a cell, or `none` for `⊥` (R10). -/
def Memory.read : Memory → Nat → Option Byte
  | [], _ => none
  | (b, v) :: m, a => if a = b then some v else Memory.read m a

/-- Sets one cell and keeps the addresses rising. -/
def Memory.write : Memory → Nat → Byte → Memory
  | [], a, v => [(a, v)]
  | (b, w) :: m, a, v =>
    if a < b then (a, v) :: (b, w) :: m
    else if a = b then (a, v) :: m
    else (b, w) :: Memory.write m a v

/-- The canonical form: addresses strictly rising. An unlisted address reads `⊥`, which no entry holds. -/
def Memory.wf (m : Memory) : Bool :=
  decide ((m.map Prod.fst).Pairwise (· < ·))

/-- `MemWrite((FRAME,i), 1, v)` (R11). -/
def State.writeFrame (i : Fin 4) (v : Byte) (s : State) : State :=
  { s with frame := s.frame.write i.val v }

/-- `MemRead((FRAME,i), 1)` (R11); `none` where the cell is `⊥`. -/
def State.readFrame (i : Fin 4) (s : State) : Option Byte :=
  s.frame.read i.val

/-- The two writes of `append(b)` (R101): the byte to `RESP[COUNT]`, and `COUNT + 1`. -/
def State.push (b : Byte) (s : State) : State :=
  { s with resp := s.resp.write s.count.toNat b, count := s.count + 1#16 }

/-- `append(b)` (R101): one received byte to `RESP[COUNT]`, then `COUNT + 1`. `none` where `COUNT` is no
index of `RESP`, which R101 says no step meets. -/
def State.append (b : Byte) (s : State) : Option State :=
  if s.count.toNat < s.cfg.cap then some (s.push b) else none

/-! ### Ports: each call takes the next answer and appends one event to TRACE -/

/-- The last answer of `Now()` in a trace, 0 before the first. -/
def lastNow (trace : List Event) : Nat :=
  trace.foldl (fun t e => match e with | .now u => u | _ => t) 0

/-- Appends an event to TRACE (R38). -/
def State.record (e : Event) (s : State) : State :=
  { s with trace := s.trace ++ [e] }

/-- The answer `TransportReady()` gives now. -/
def State.readyAnswer (s : State) : Bool :=
  s.env.ready.headD (Config.freeReady s.trace.length)

/-- The state after `TransportReady()` (R12). -/
def State.callReady (s : State) : State :=
  { s with env := { s.env with ready := s.env.ready.tail } }.record (.ready s.readyAnswer)

/-- The state after `SetLine(l, v)` (R12), which has no result. -/
def State.callSetLine (l : Line) (v : Bool) (s : State) : State :=
  s.record (.setLine l v)

/-- The answer `ReadLine(l)` gives now. -/
def State.lineAnswer (l : Line) (s : State) : Bool :=
  match l with
  | .frame => s.env.frameLine.headD (Config.freeLine s.trace.length .frame)
  | .ack => s.env.ackLine.headD (Config.freeLine s.trace.length .ack)
  | .irq => Config.freeLine s.trace.length .irq

/-- The environment after an answer of `ReadLine(l)`. -/
def Env.dropLine (l : Line) (e : Env) : Env :=
  match l with
  | .frame => { e with frameLine := e.frameLine.tail }
  | .ack => { e with ackLine := e.ackLine.tail }
  | .irq => e

/-- The state after `ReadLine(l)` (R12). -/
def State.callReadLine (l : Line) (s : State) : State :=
  { s with env := s.env.dropLine l }.record (.readLine l (s.lineAnswer l))

/-- Whether `Exchange` answers `Ok` now. -/
def State.exchangeAnswer (s : State) : Bool :=
  s.env.exchange.headD (Config.freeExchange s.trace.length)

/-- The state after `Exchange(b0, b1, b2, b3)` (R12, R45). The bytes clocked in are discarded (R88). -/
def State.callExchange (b0 b1 b2 b3 : Byte) (s : State) : State :=
  { s with env := { s.env with exchange := s.env.exchange.tail } }.record (.exchange b0 b1 b2 b3 s.exchangeAnswer)

/-- The answer `ReadByte` gives now; `none` is `Err`. -/
def State.byteAnswer (s : State) : Option Byte :=
  s.env.byte.headD (Config.freeByte s.trace.length)

/-- The state after `ReadByte(t)` (R12). -/
def State.callReadByte (t : Nat) (s : State) : State :=
  { s with env := { s.env with byte := s.env.byte.tail } }.record (.readByte t s.byteAnswer)

/-- The greatest of the bounds `1` to `b` that the clock has to have reached by the `n`-th port call (R123,
fairness); 0 where it has to have reached none of them. -/
def reachedBound (n : Nat) : Nat → Nat
  | 0 => 0
  | b + 1 => if Config.freeReach (b + 1) ≤ n then b + 1 else reachedBound n b

/-- How far an unscripted clock moves from the answer `last` to its answer at the `n`-th port call: freely,
but up to every bound it has to have reached by then (R123). -/
def freeMove (n last : Nat) : Nat :=
  max (Config.freeElapsed n) (reachedBound n n - last)

/-- The answer `Now()` gives now: never below an earlier one (R123, monotonicity), and past every bound in the
end (R123, fairness). -/
def State.nowAnswer (s : State) : Nat :=
  lastNow s.trace + s.env.elapsed.headD (freeMove s.trace.length (lastNow s.trace))

/-- The state after `Now()` (R12). -/
def State.callNow (s : State) : State :=
  { s with env := { s.env with elapsed := s.env.elapsed.tail } }.record (.now s.nowAnswer)

/-! ### The state register -/

/-- The state a code of `ST` names; `none` for the reserved codes 10 to 15 (R23). -/
def Phase.ofCode (c : BitVec 4) : Option Phase :=
  match c.toNat with
  | 0 => some .idle
  | 1 => some .faDrive
  | 2 => some .faVerify
  | 3 => some .xmit
  | 4 => some .ackW1
  | 5 => some .ackW2
  | 6 => some .read
  | 7 => some .deassert
  | 8 => some .complete
  | 9 => some .failed
  | _ => none

/-- Quiescent (R17): the block accepts a request only here. -/
def Phase.quiescent : Phase → Bool
  | .idle | .complete | .failed => true
  | _ => false

/-- `ERR` holds one of the codes 0 to 7 (R115). -/
def errLegal (c : BitVec 4) : Bool := decide (c.toNat < 8)

/-- The state `ST` names, unless `ST` or `ERR` holds a reserved code (R117, `RESERVED_STATE`). -/
def State.phase (s : State) : Option Phase :=
  if errLegal s.err then Phase.ofCode s.st else none

/-- `ST <- p` (R10). -/
def State.goto (p : Phase) (s : State) : State :=
  { s with st := p.code }

/-- `DL <- d` (R36). -/
def State.armDeadline (d : Nat) (s : State) : State :=
  { s with dl := some d }

/-! ### Failing -/

/-- `fail E` (R13, R120): only in acceptance, the frame line untouched. -/
def State.failWith (e : FailCode) (s : State) : State :=
  { s with err := e.code, st := Phase.failed.code }

/-- `raise E` (R13, R120): the rest of the transaction is the `DEASSERT` step. -/
def State.raise (e : FailCode) (s : State) : State :=
  { s with err := e.code, st := Phase.deassert.code }

/-- Return from a failure, and from a success (R90, R121): the block is quiescent again, in `COMPLETE` with
`VALID = 1` where `ERR = NONE`, else in `FAILED` with `VALID = 0` and `MATCH = 0`. `m` is the value the
success path leaves in `MATCH`. -/
def State.settle (m : Bool) (s : State) : State :=
  if s.err = FailCode.none.code then
    { s with valid := true, matched := m, st := Phase.complete.code }
  else
    { s with valid := false, matched := false, st := Phase.failed.code }

end Sys2Proof.Machine
end

