-- ==== Sys2Proof/Machine/Operands.lean ====
section
/-! DEFINITION. The operands of a request: the fields acceptance latches from a word (R20, R64, R75), the
destination byte (R61), and the timing a policy selects (R66). -/

namespace Sys2Proof.Machine

/-- The fields `accept(w)` latches into `REQ.*` (R75); of an illegal word too. -/
def Request.ofWord (w : Word64) : Request where
  kind := fieldKind w
  policy := fieldPolicy w
  mode := fieldMode w
  n := fieldN w
  base := fieldBase w
  addr := fieldAddr w
  opc := fieldOpc w
  arg1 := fieldArg1 w
  arg2 := fieldArg2 w

/-- The fields a request form latches (R64, R80 to R83). -/
def Request.ofInstr : Instr → Request
  | .execW policy base addr _ opc arg1 arg2 => ⟨kindExec, policy, modeW, 0#8, base, addr, opc, arg1, arg2⟩
  | .execR policy n base addr _ opc arg1 arg2 => ⟨kindExec, policy, modeR, n, base, addr, opc, arg1, arg2⟩
  | .execT policy n base addr _ opc arg1 arg2 => ⟨kindExec, policy, modeT, n, base, addr, opc, arg1, arg2⟩
  | .validate policy base addr _ opc arg1 arg2 =>
    ⟨kindValidate, policy, modeR, 1#8, base, addr, opc, arg1, arg2⟩

/-- The caller's byte 0 of a request form (R63). -/
def callerByte : Instr → Byte
  | .execW _ _ _ b0 _ _ _ => b0
  | .execR _ _ _ _ b0 _ _ _ => b0
  | .execT _ _ _ _ b0 _ _ _ => b0
  | .validate _ _ _ b0 _ _ _ => b0

/-- The destination byte, `(REQ.ADDR + REQ.BASE)[7:0]` of the 9-bit sum (R61, R87). -/
def Request.destination (r : Request) : Byte :=
  (r.addr.zeroExtend 9 + r.base.zeroExtend 9).extractLsb' 0 8

/-- `T_ACK1[REQ.POLICY]` (R66). -/
def Request.tAck1 (c : Params) (r : Request) : Nat := c.tAck1.at r.policy
/-- `T_ACK2[REQ.POLICY]` (R66). -/
def Request.tAck2 (c : Params) (r : Request) : Nat := c.tAck2.at r.policy
/-- `T_BYTE[REQ.POLICY]` (R66). -/
def Request.tByte (c : Params) (r : Request) : Nat := c.tByte.at r.policy

end Sys2Proof.Machine
end

