-- ==== Sys2Proof/Machine/Flags.lean ====
section
/-! DEFINITION. The flags and result fields: how acceptance clears them (R75), the STATUS view (R31), and
the counts a trace gives (R39). -/

namespace Sys2Proof.Machine

/-- The result fields as acceptance clears them (R75): every `RESP` cell and `DL` to `⊥`, the count, the
code and every flag of a transaction to 0. -/
def State.clearResult (s : State) : State :=
  { s with
    resp := [], count := 0#16, valid := false, err := FailCode.none.code, matched := false, dl := none,
    ack1TO := false, ack2TO := false, precheckWarn := false, sawTerm := false }

/-- `FRAME_OUT <- b` (R35). -/
def State.setFrameOut (b : Bool) (s : State) : State := { s with frameOut := b }

/-- `ACK1_TO <- 1` (R26, R95). -/
def State.setAck1TO (s : State) : State := { s with ack1TO := true }

/-- `ACK2_TO <- 1` (R26, R96). -/
def State.setAck2TO (s : State) : State := { s with ack2TO := true }

/-- `PRECHECK_WARN <- 1` (R27, R84). -/
def State.setPrecheckWarn (s : State) : State := { s with precheckWarn := true }

/-- `SAW_TERM <- 1` (R28, R105). -/
def State.setSawTerm (s : State) : State := { s with sawTerm := true }

/-- `if b = TERM: SAW_TERM <- 1` (R105). -/
def State.noteTerm (b : Byte) (s : State) : State := if b = termByte then s.setSawTerm else s

/-- `FAULT <- 1` (R30, R76). -/
def State.setFault (s : State) : State := { s with fault := true }

/-- `COUNT <- 0` (R87). -/
def State.zeroCount (s : State) : State := { s with count := 0#16 }

/-- `STATUS` (R31), high bits first. -/
def State.status (s : State) : Word32 :=
  s.count ++ BitVec.ofBool s.frameOut ++ BitVec.ofBool s.fault ++ BitVec.ofBool s.matched
    ++ BitVec.ofBool s.sawTerm ++ BitVec.ofBool s.precheckWarn ++ BitVec.ofBool s.ack2TO
    ++ BitVec.ofBool s.ack1TO ++ BitVec.ofBool s.valid ++ s.err ++ s.st

/-- The result of a transaction (R78); `bytes` is `RESP[0..COUNT-1]`. -/
structure TransactionResult where
  valid : Bool
  count : BitVec 16
  bytes : List (Option Byte)
  err : BitVec 4
  ack1TO : Bool
  ack2TO : Bool
  precheckWarn : Bool
  sawTerm : Bool
  matched : Bool
deriving DecidableEq, Repr

/-- The result the state holds (R78): final once the block is quiescent. -/
def State.result (s : State) : TransactionResult where
  valid := s.valid
  count := s.count
  bytes := (List.range s.count.toNat).map s.resp.read
  err := s.err
  ack1TO := s.ack1TO
  ack2TO := s.ack2TO
  precheckWarn := s.precheckWarn
  sawTerm := s.sawTerm
  matched := s.matched

/-- `N_ASSERT(TRACE)` (R39), for the level the frame line is asserted at. -/
def nAssert (level : Bool) (trace : List Event) : Nat :=
  trace.countP (fun e => decide (e = .setLine .frame level))

/-- `N_DEASSERT(TRACE)` (R39). -/
def nDeassert (level : Bool) (trace : List Event) : Nat :=
  trace.countP (fun e => decide (e = .setLine .frame (!level)))

end Sys2Proof.Machine
end

