-- ==== Sys2Proof/Machine/Accept.lean ====
section
/-! DEFINITION. Acceptance (R75), its pre-check (R84), and a request while the block is busy or faulted (R76). -/

namespace Sys2Proof.Machine

/-- `precheck()` (R84): one `ReadLine(ACK)`; a low level is recorded and changes nothing else. -/
def precheck (s : State) : State :=
  let s' := s.callReadLine .ack
  if s.lineAnswer .ack = ackAssertLevel then s'.setPrecheckWarn else s'

/-- The first half of `accept(w)` (R75): latch the request and the four frame bytes, clear the result. -/
def latch (r : Request) (b0 : Byte) (s : State) : State :=
  ((((({ s with req := some r }).writeFrame 0 b0).writeFrame 1 r.opc).writeFrame 2 r.arg1).writeFrame 3
    r.arg2).clearResult

/-- `accept(w)` (R75) for the request fields `r`, the caller's byte `b0`, and `legal`, which says whether
`decode(w)` is a form. The order of the checks is R119's. -/
def accept (r : Request) (b0 : Byte) (legal : Bool) (s : State) : State :=
  let s1 := latch r b0 s
  if legal = false then s1.failWith .invalidArgument
  else
    let s2 := s1.callReady
    if s1.readyAnswer = false then s2.failWith .busUnavailable
    else if r.policy = .ackAware then (precheck s2).goto .faDrive
    else s2.goto .faDrive

/-- A request presented in a state (R75, R76): accepted where the block is quiescent, the model fault
`CONCURRENT_REQUEST` where it is busy, no step where `FAULT = 1`. -/
def present (r : Request) (b0 : Byte) (legal : Bool) (s : State) : Result :=
  match s.phase with
  | none => .fault .reservedState
  | some p =>
    if s.fault = true then .fault .concurrentRequest
    else if p.quiescent = true then .next (accept r b0 legal s)
    else .next s.setFault

end Sys2Proof.Machine
end

