-- ==== Sys2Proof/Machine/Requests.lean ====
section
/-! DEFINITION. The meanings of the four request forms: presenting one to the block (R80 to R83, first
step `accept(w)`). What the accepted form then does is latched in `REQ.KIND`, `REQ.MODE` and `REQ.N`, and
runs in the step rules of Machine/FrameLine.lean, AckPoll.lean, ReadLoop.lean and Validate.lean. A term
that the request map does not admit is rejected by `INVALID_ARGUMENT`, as its word is (R70). -/

namespace Sys2Proof.Machine

/-- `EXEC.W` (R80): `KIND = EXEC`, `MODE = W`, `N = 0`. -/
def execExecW (policy : Policy) (base addr b0 opc arg1 arg2 : Byte) (s : State) : Result :=
  present (Request.ofInstr (.execW policy base addr b0 opc arg1 arg2)) b0 (sumLegal base addr) s

/-- `EXEC.R` (R81): `KIND = EXEC`, `MODE = R`, `1 <= N <= CAP`. -/
def execExecR (policy : Policy) (n base addr b0 opc arg1 arg2 : Byte) (s : State) : Result :=
  present (Request.ofInstr (.execR policy n base addr b0 opc arg1 arg2)) b0
    (countLegal s.cfg.cap n && sumLegal base addr) s

/-- `EXEC.T` (R82): `KIND = EXEC`, `MODE = T`; `N` is latched and never read. -/
def execExecT (policy : Policy) (n base addr b0 opc arg1 arg2 : Byte) (s : State) : Result :=
  present (Request.ofInstr (.execT policy n base addr b0 opc arg1 arg2)) b0 (sumLegal base addr) s

/-- `VALIDATE` (R83): `KIND = VALIDATE`, `MODE = R`, `N = 1`. -/
def execValidate (policy : Policy) (base addr b0 opc arg1 arg2 : Byte) (s : State) : Result :=
  present (Request.ofInstr (.validate policy base addr b0 opc arg1 arg2)) b0 (sumLegal base addr) s

/-- A word that decodes to no form (R70): latched, cleared and failed with `INVALID_ARGUMENT`. -/
def presentIllegal (w : Word64) (s : State) : Result :=
  present (Request.ofWord w) (fieldB0 w) false s

end Sys2Proof.Machine
end

