-- ==== Sys2Proof/Machine/Dispatch.lean ====
section
/-! DEFINITION. One arm per request form. -/

namespace Sys2Proof.Machine

def exec (i : Instr) (s : State) : Host.Outcome State Fault Refusal :=
  match i with
  | .execW policy base addr b0 opc arg1 arg2 => Sys2Proof.Machine.execExecW policy base addr b0 opc arg1 arg2 s
  | .execR policy n base addr b0 opc arg1 arg2 => Sys2Proof.Machine.execExecR policy n base addr b0 opc arg1 arg2 s
  | .execT policy n base addr b0 opc arg1 arg2 => Sys2Proof.Machine.execExecT policy n base addr b0 opc arg1 arg2 s
  | .validate policy base addr b0 opc arg1 arg2 => Sys2Proof.Machine.execValidate policy base addr b0 opc arg1 arg2 s

end Sys2Proof.Machine
end

