-- ==== Sys2Proof/Machine/AckPoll.lean ====
section
/-! DEFINITION. The poll primitive (R93) and the two acknowledge waits (R95, R96). -/

namespace Sys2Proof.Machine

/-- What one poll iteration finds (R93). -/
inductive Poll where
  | hit (t : Nat)
  | timeout (t : Nat)
  | again
deriving DecidableEq, Repr

/-- The state after the two port calls of an iteration: the line first, the clock second (R93). -/
def afterPoll (l : Line) (s : State) : State := (s.callReadLine l).callNow

/-- `poll_iter(l, want)` (R93): a hit wins over a timeout. `none` where the deadline it must test is `⊥`. -/
def pollIter (l : Line) (want : Bool) (s : State) : Option Poll :=
  let t := (s.callReadLine l).nowAnswer
  if s.lineAnswer l = want then some (.hit t)
  else match s.dl with
    | none => none
    | some d => if d ≤ t then some (.timeout t) else some .again

/-- The end of the short wait (R95): `t` is its last clock sample, `s` the state after it. -/
def endShortWait (r : Request) (t : Nat) (s : State) : State :=
  if r.mode = modeW then
    if s.ack1TO = true ∧ s.cfg.noackWriteValid = false then s.raise .ackTimeout else s.goto .deassert
  else (s.armDeadline (t + r.tAck2 s.cfg)).goto .ackW2

/-- Step in `ST = ACK_W1` (R95). -/
def stepAckW1 (s : State) : Result :=
  match s.req, pollIter .ack ackAssertLevel s with
  | _, some .again => .next ((afterPoll .ack s).goto .ackW1)
  | some r, some (.hit t) => .next (endShortWait r t (afterPoll .ack s))
  | some r, some (.timeout t) => .next (endShortWait r t (afterPoll .ack s).setAck1TO)
  | _, _ => .fault .unwrittenRead

/-- Step in `ST = ACK_W2` (R96). -/
def stepAckW2 (s : State) : Result :=
  match pollIter .ack ackAssertLevel s with
  | none => .fault .unwrittenRead
  | some (.hit _) => .next ((afterPoll .ack s).goto .read)
  | some (.timeout _) => .next ((afterPoll .ack s).setAck2TO.raise .ackTimeout)
  | some .again => .next ((afterPoll .ack s).goto .ackW2)

end Sys2Proof.Machine
end

