-- ==== Sys2Proof/Machine/FrameLine.lean ====
section
/-! DEFINITION. The steps that drive or check the frame line and send the command: `FA_DRIVE` (R85),
`FA_VERIFY` (R86), `XMIT` (R87). -/

namespace Sys2Proof.Machine

/-- Step in `ST = FA_DRIVE` (R85). -/
def stepFaDrive (s : State) : Result :=
  let s1 := (s.callSetLine .frame s.cfg.frameAssertLevel).setFrameOut true
  .next ((s1.callNow.armDeadline (s1.nowAnswer + s.cfg.tSettle)).goto .faVerify)

/-- Step in `ST = FA_VERIFY` (R86). -/
def stepFaVerify (s : State) : Result :=
  match pollIter .frame s.cfg.frameAssertLevel s with
  | none => .fault .unwrittenRead
  | some (.hit _) => .next ((afterPoll .frame s).goto .xmit)
  | some (.timeout _) => .next ((afterPoll .frame s).raise .frameAssertFailure)
  | some .again => .next ((afterPoll .frame s).goto .faVerify)

/-- `Exchange` of the four frame bytes and what follows it (R87), `s` holding the overwritten byte 0. -/
def sendFrame (r : Request) (b0 b1 b2 b3 : Byte) (s : State) : State :=
  let s1 := s.callExchange b0 b1 b2 b3
  if s.exchangeAnswer = false then s1.zeroCount.raise .transmitFailure
  else (s1.callNow.armDeadline (s1.nowAnswer + r.tAck1 s.cfg)).goto .ackW1

/-- Step in `ST = XMIT` (R87). Reading a `⊥` cell of `FRAME`, or `REQ.*` at `⊥`, is `UNWRITTEN_READ`. -/
def stepXmit (s : State) : Result :=
  match s.req with
  | none => .fault .unwrittenRead
  | some r =>
    let s1 := s.writeFrame 0 r.destination
    match s1.readFrame 0, s1.readFrame 1, s1.readFrame 2, s1.readFrame 3 with
    | some b0, some b1, some b2, some b3 => .next (sendFrame r b0 b1 b2 b3 s1)
    | _, _, _, _ => .fault .unwrittenRead

end Sys2Proof.Machine
end

