-- ==== Sys2Proof/Machine/ReadLoop.lean ====
section
/-! DEFINITION. The byte read loop (R101 to R106). -/

namespace Sys2Proof.Machine

/-- After a byte of a fixed-count read is stored (R104). -/
def afterByteR (r : Request) (s : State) : State :=
  if s.count.toNat = r.n.toNat then s.goto .deassert else s.goto .read

/-- After the byte `b` of a terminator read is stored (R105, R106): the trailing byte ends the read; a full
buffer with the read unfinished is `BUFFER_OVERFLOW`. -/
def afterByteT (b : Byte) (s : State) : State :=
  if s.sawTerm = true then s.goto .deassert
  else
    let s1 := s.noteTerm b
    if s1.count.toNat = s1.cfg.cap then s1.raise .bufferOverflow else s1.goto .read

/-- One `ReadByte` (R102) and what `done` does once the byte is stored; `Err` is `READ_TRUNCATED` (R103). -/
def readOne (r : Request) (done : Byte → State → State) (s : State) : Result :=
  let s1 := s.callReadByte (r.tByte s.cfg)
  match s.byteAnswer with
  | none => .next (s1.raise .readTruncated)
  | some b =>
    match s1.append b with
    | none => .fault .outsideSpace
    | some s2 => .next (done b s2)

/-- Step in `ST = READ`: R104 in mode `R`, R105 in mode `T`. -/
def stepRead (s : State) : Result :=
  match s.req with
  | none => .fault .unwrittenRead
  | some r =>
    if r.mode = modeR then readOne r (fun _ => afterByteR r) s
    else if r.mode = modeT then readOne r afterByteT s
    else .fault .noReadRule

end Sys2Proof.Machine
end

