-- ==== Sys2Proof/Machine/Validate.lean ====
section
/-! DEFINITION. The frame deassert, which ends every transaction that drove the frame line (R90), and the
address check of a VALIDATE (R110). -/

namespace Sys2Proof.Machine

/-- The value `DEASSERT` leaves in `MATCH` on its success path: `val_check()` for a `VALIDATE` (R110), else
the value `MATCH` has. `none` where a field or cell it reads is `⊥`. -/
def matchAfter (s : State) : Option Bool :=
  match s.req with
  | none => none
  | some r =>
    if r.kind = kindValidate then
      match s.resp.read 0 with
      | none => none
      | some b => some (decide (b = r.addr))
    else some s.matched

/-- Step in `ST = DEASSERT` (R90). -/
def stepDeassert (s : State) : Result :=
  let s1 := (s.callSetLine .frame (!s.cfg.frameAssertLevel)).setFrameOut false
  if s.err = FailCode.none.code then
    match matchAfter s1 with
    | none => .fault .unwrittenRead
    | some m => .next (s1.settle m)
  else .next (s1.settle false)

end Sys2Proof.Machine
end

