-- ==== Sys2Proof/Machine/Block.lean ====
section
/-! DEFINITION. The one step the block has enabled, by `ST` (R21, R77). -/

namespace Sys2Proof.Machine

/-- The block's own step. In a quiescent state it sits and makes no port call (R129); with `FAULT = 1` it
has no step (R30). -/
def blockStep (s : State) : Result :=
  match s.phase with
  | none => .fault .reservedState
  | some p =>
    if s.fault = true then .fault .concurrentRequest
    else
      match p with
      | .idle => .next s
      | .faDrive => stepFaDrive s
      | .faVerify => stepFaVerify s
      | .xmit => stepXmit s
      | .ackW1 => stepAckW1 s
      | .ackW2 => stepAckW2 s
      | .read => stepRead s
      | .deassert => stepDeassert s
      | .complete => .next s
      | .failed => .next s

end Sys2Proof.Machine
end

