-- ==== Sys2Proof/Machine/HostPort.lean ====
section
/-! DEFINITION. The host's side of R127: reset (R130), the two reads (R31, R41), waiting, and the SCAN
sequence (R73). -/

namespace Sys2Proof.Machine

/-- Reset (R130, R131): every field of the record to its reset value, but TRACE, the parameters, and the
environment stay, and so does what the host holds. No port call is made. -/
def resetEvent (s : State) : State :=
  { State.reset with cfg := s.cfg, trace := s.trace, env := s.env, host := s.host, replies := s.replies }

/-- A host read of `STATUS` (R31): in any state, with no side effect on the block. -/
def hostReadStatus (s : State) : Result :=
  .next { s with replies := s.replies ++ [.status s.status] }

/-- A host read of `RESP[i]` (R41, R117, R127), at any time: refused outside the space, `UNWRITTEN_READ` at
or above `COUNT`, else the byte received. -/
def hostReadResp (i : Nat) (s : State) : Result :=
  if s.cfg.cap ≤ i then .refused .respIndexOutsideSpace
  else if s.count.toNat ≤ i then .fault .unwrittenRead
  else
    match s.resp.read i with
    | none => .fault .unwrittenRead
    | some b => .next { s with replies := s.replies ++ [.resp i b] }

/-- A host that waits for a quiescent state (R133): while the block is busy the block steps and the host
goes on waiting; `s` still holds the waiting entry and `done` no longer does. -/
def hostAwait (s done : State) : Result :=
  match s.phase with
  | none => .fault .reservedState
  | some p => if p.quiescent = true then .next done else blockStep s

/-- The word of one probe of a SCAN (R73). -/
def scanWord (policy : Policy) (base opc arg1 arg2 a : Byte) : Word64 :=
  encode (.validate policy base a 0#8 opc arg1 arg2)

/-- The addresses `lo, lo+1, ..., hi` (R73); none where `hi < lo`. -/
def scanAddresses (lo hi : Byte) : List Byte :=
  (List.range' lo.toNat (hi.toNat + 1 - lo.toNat)).map (BitVec.ofNat 8)

/-- `SCAN lo, hi, base, opc, arg1, arg2` (R73) as what the host does: each `VALIDATE` once the previous
one is quiescent, and a read of `STATUS` after it. -/
def scanProgram (policy : Policy) (base opc arg1 arg2 lo hi : Byte) : List HostInput :=
  (scanAddresses lo hi).flatMap fun a =>
    [.request (scanWord policy base opc arg1 arg2 a), .await, .readStatus]

/-- `STATUS[13]`, `MATCH` (R31). -/
def statusMatch (w : Word32) : Bool := w.getLsbD 13

/-- The result of a SCAN (R73): the addresses whose `VALIDATE` ended with `MATCH = 1`, from the words its
reads of `STATUS` gave back, in order. -/
def scanResult (lo hi : Byte) (words : List Word32) : List Byte :=
  ((scanAddresses lo hi).zip words).filterMap fun p => if statusMatch p.2 then some p.1 else none

end Sys2Proof.Machine
end

