-- ==== Sys2Proof/Machine/Fetch.lean ====
section
/-! DEFINITION. How a request reaches the block: the word the host presents is decoded (R68) and its form
executed; a word that decodes to no form is failed as illegal (R70). -/

namespace Sys2Proof.Machine

/-- A request word presented to the block (R75, R76). -/
def presentWord (w : Word64) (s : State) : Result :=
  match decode s.cfg.cap w with
  | some i => exec i s
  | none => presentIllegal w s

/-- The host takes its next slot: `s` is the state with that slot taken off. -/
def hostSlot (h : HostInput) (s : State) : Result :=
  match h with
  | .request w => presentWord w s
  | .reset => .next (resetEvent s)
  | .readStatus => hostReadStatus s
  | .readResp i => hostReadResp i s
  | .idle => blockStep s
  | .await => hostAwait { s with host := .await :: s.host } s

end Sys2Proof.Machine
end

