-- ==== Sys2Proof/Machine/Step.lean ====
section
/-! DEFINITION. One step of the machine, block and host together, and where an instruction is placed for it. -/

namespace Sys2Proof.Machine

/-- One step: the host's next slot where it has one, else the block's own step (R77). -/
def step (s : State) : Host.Outcome State Fault Refusal :=
  match s.host with
  | [] => blockStep s
  | h :: rest => hostSlot h { s with host := rest }

/-- `s` with a request word as the host's next slot, so that the very next step presents it. -/
def State.withFetchWord (s : State) (nbits w : Nat) : State :=
  { s with host := .request (BitVec.ofNat 64 (w % 2 ^ nbits)) :: s.host }

end Sys2Proof.Machine
end

