-- ==== Sys2Proof/Machine/Assembler.lean ====
section
/-! DEFINITION. The assembler lines of R72 and R73: their text, the numbers it holds in the order the line
writes them, with the default of an option that is absent, and the request word or host sequence they give. -/

namespace Sys2Proof.Machine

/-- The options of a request line (R72): `ackaware`, `b0=v`, and `n=v`, which only `EXEC.T` takes. -/
structure AsmOptions where
  ackaware : Bool := false
  b0 : Option Nat := none
  n : Option Nat := none
deriving DecidableEq, Repr

/-- The lines of R72, and the pseudo-instruction `SCAN` of R73. -/
inductive AsmLine where
  | execW (addr base opc arg1 arg2 : Nat) (options : AsmOptions)
  | execR (addr base opc arg1 arg2 n : Nat) (options : AsmOptions)
  | execT (addr base opc arg1 arg2 : Nat) (options : AsmOptions)
  | validate (addr base opc arg1 arg2 : Nat) (options : AsmOptions)
  | scan (lo hi base opc arg1 arg2 : Nat) (ackaware : Bool)
deriving DecidableEq, Repr

/-! ### The text of a line -/

/-- The value of a digit, decimal or hexadecimal. -/
def digitValue (c : Char) : Option Nat :=
  let n := c.toNat
  if 48 ≤ n ∧ n ≤ 57 then some (n - 48)
  else if 97 ≤ n ∧ n ≤ 102 then some (n - 87)
  else if 65 ≤ n ∧ n ≤ 70 then some (n - 55)
  else none

/-- The digits of a number in a base, after the digits read so far gave `acc`. -/
def digitsValue (base : Nat) : List Char → Nat → Option Nat
  | [], acc => some acc
  | c :: cs, acc =>
    match digitValue c with
    | some d => if d < base then digitsValue base cs (acc * base + d) else none
    | none => none

/-- A number, "in decimal or `0x` hexadecimal" (R72). -/
def asmNumber : List Char → Option Nat
  | [] => none
  | ['0', 'x'] => none
  | '0' :: 'x' :: cs => digitsValue 16 cs 0
  | cs => digitsValue 10 cs 0

/-- The value of an option written `name=number`; `none` where the text is no such option. -/
def asmSetting (name text : List Char) : Option Nat :=
  if text.take name.length = name then asmNumber (text.drop name.length) else none

/-- The text without its blanks. -/
def dropBlanks (text : List Char) : List Char := text.filter (· ≠ ' ')

/-- The operands of a line, between its commas. -/
def splitCommas : List Char → List (List Char)
  | [] => [[]]
  | c :: cs =>
    match splitCommas cs with
    | [] => [[c]]
    | w :: ws => if c = ',' then [] :: w :: ws else (c :: w) :: ws

/-- The mnemonic of a line, up to its first blank, and what follows it. -/
def splitMnemonic : List Char → List Char × List Char
  | [] => ([], [])
  | c :: cs => if c = ' ' then ([], cs) else let r := splitMnemonic cs; (c :: r.1, r.2)

/-- The options at the end of a line, in the order R72 writes them; `none` where something else stands there. -/
def asmOptions (words : List (List Char)) : Option AsmOptions :=
  let (ack, words) := match words with
    | w :: ws => if w = ['a', 'c', 'k', 'a', 'w', 'a', 'r', 'e'] then (true, ws) else (false, w :: ws)
    | [] => (false, [])
  let (b0, words) := match words with
    | w :: ws => match asmSetting ['b', '0', '='] w with
      | some v => (some v, ws)
      | none => (none, w :: ws)
    | [] => (none, [])
  match words with
  | [] => some { ackaware := ack, b0 := b0, n := none }
  | [w] => (asmSetting ['n', '='] w).map fun v => { ackaware := ack, b0 := b0, n := some v }
  | _ => none

/-- A line of R72 or R73 from its text; `none` where the text is no such line. -/
def parseLine (text : List Char) : Option AsmLine :=
  let (mnemonic, rest) := splitMnemonic text
  let words := splitCommas (dropBlanks rest)
  if mnemonic = ['E', 'X', 'E', 'C', '.', 'W'] then
    match words with
    | a :: b :: c :: d :: e :: os => do
      some (.execW (← asmNumber a) (← asmNumber b) (← asmNumber c) (← asmNumber d) (← asmNumber e) (← asmOptions os))
    | _ => none
  else if mnemonic = ['E', 'X', 'E', 'C', '.', 'R'] then
    match words with
    | a :: b :: c :: d :: e :: n :: os => do
      some (.execR (← asmNumber a) (← asmNumber b) (← asmNumber c) (← asmNumber d) (← asmNumber e) (← asmNumber n)
        (← asmOptions os))
    | _ => none
  else if mnemonic = ['E', 'X', 'E', 'C', '.', 'T'] then
    match words with
    | a :: b :: c :: d :: e :: os => do
      some (.execT (← asmNumber a) (← asmNumber b) (← asmNumber c) (← asmNumber d) (← asmNumber e) (← asmOptions os))
    | _ => none
  else if mnemonic = ['V', 'A', 'L', 'I', 'D', 'A', 'T', 'E'] then
    match words with
    | a :: b :: c :: d :: e :: os => do
      some (.validate (← asmNumber a) (← asmNumber b) (← asmNumber c) (← asmNumber d) (← asmNumber e)
        (← asmOptions os))
    | _ => none
  else if mnemonic = ['S', 'C', 'A', 'N'] then
    match words with
    | a :: b :: c :: d :: e :: f :: os => do
      let o ← asmOptions os
      if o.b0 = none ∧ o.n = none then
        some (.scan (← asmNumber a) (← asmNumber b) (← asmNumber c) (← asmNumber d) (← asmNumber e) (← asmNumber f)
          o.ackaware)
      else none
    | _ => none
  else none

/-! ### The word of a line -/

/-- A number of a line as the byte of its field; `none` where the field has no room for it. -/
def asmByte (v : Nat) : Option Byte := if v < 256 then some (BitVec.ofNat 8 v) else none

/-- `POLICY` of a line: an absent `ackaware` means 0 (R72). -/
def asmPolicy (ackaware : Bool) : Policy := if ackaware then .ackAware else .default

/-- The request word of a request line (R72); `none` for `SCAN`, which has no word (R73), for a number that
does not fit its field, and for an option the form does not take. Whether the word is legal is the
decoder's business. -/
def assemble (l : AsmLine) : Option Word64 :=
  match l with
  | .execW addr base opc arg1 arg2 o => do
    let i := Instr.execW (asmPolicy o.ackaware) (← asmByte base) (← asmByte addr) (← asmByte (o.b0.getD 0))
      (← asmByte opc) (← asmByte arg1) (← asmByte arg2)
    if o.n = none then some (encode i) else none
  | .execR addr base opc arg1 arg2 n o => do
    let i := Instr.execR (asmPolicy o.ackaware) (← asmByte n) (← asmByte base) (← asmByte addr)
      (← asmByte (o.b0.getD 0)) (← asmByte opc) (← asmByte arg1) (← asmByte arg2)
    if o.n = none then some (encode i) else none
  | .execT addr base opc arg1 arg2 o => do
    let i := Instr.execT (asmPolicy o.ackaware) (← asmByte (o.n.getD 0)) (← asmByte base) (← asmByte addr)
      (← asmByte (o.b0.getD 0)) (← asmByte opc) (← asmByte arg1) (← asmByte arg2)
    some (encode i)
  | .validate addr base opc arg1 arg2 o => do
    let i := Instr.validate (asmPolicy o.ackaware) (← asmByte base) (← asmByte addr)
      (← asmByte (o.b0.getD 0)) (← asmByte opc) (← asmByte arg1) (← asmByte arg2)
    if o.n = none then some (encode i) else none
  | .scan _ _ _ _ _ _ _ => none

/-- What the host does for a line: one request, or the sequence of R73. -/
def AsmLine.program (l : AsmLine) : Option (List HostInput) :=
  match l with
  | .scan lo hi base opc arg1 arg2 ackaware => do
    some (scanProgram (asmPolicy ackaware) (← asmByte base) (← asmByte opc) (← asmByte arg1)
      (← asmByte arg2) (← asmByte lo) (← asmByte hi))
  | line => (assemble line).map fun w => [.request w]

/-- The request word of a line of text (R72). -/
def assembleText (text : String) : Option Word64 := (parseLine text.toList).bind assemble

end Sys2Proof.Machine
end

