-- ==== Sys2Proof/Safety.lean ====
section
/-! DEFINITION. What counts as a safe state and a safe run of PPR-PE, in the terms the claims use. -/

namespace Sys2Proof.Machine

/-- `k` steps, stopping at the first fault or refusal. -/
def run : Nat → State → Result
  | 0, s => .next s
  | k + 1, s =>
    match step s with
    | .next t => run k t
    | .fault r => .fault r
    | .refused r => .refused r

/-- Mask and match of the four rows of the request map (R69), as spec/opcode_table.json has them. -/
def tableRows : List (Word64 × Word64) :=
  [(0xFBFF000000000000#64, 0x0000000000000000#64), (0xFB00000000000000#64, 0x0100000000000000#64),
    (0xFB00000000000000#64, 0x0200000000000000#64), (0xFBFF000000000000#64, 0x4101000000000000#64)]

/-- The block can accept a request (R75): a quiescent state, no reserved code, `FAULT = 0`. -/
def Ready (s : State) : Prop :=
  ∃ p, s.phase = some p ∧ p.quiescent = true ∧ s.fault = false

/-- The block is in the given state of its machine, not faulted, and the host does nothing, so that the next
step is the block's own (R77). -/
def BlockIn (p : Phase) (s : State) : Prop :=
  s.phase = some p ∧ s.fault = false ∧ s.host = []

/-- The latched fields are those of a legal request (R68). -/
def RequestLegal (c : Params) (r : Request) : Prop :=
  r.addr.toNat + r.base.toNat ≤ 255 ∧
    ((r.kind = kindExec ∧ r.mode = modeW ∧ r.n = 0#8) ∨
      (r.kind = kindExec ∧ r.mode = modeR ∧ 1 ≤ r.n.toNat ∧ r.n.toNat ≤ c.cap) ∨
      (r.kind = kindExec ∧ r.mode = modeT) ∨
      (r.kind = kindValidate ∧ r.mode = modeR ∧ r.n = 1#8))

/-- `FRAME` with `b` in byte 0 and the request's opcode and argument bytes behind it (R60, R75). -/
def frameCells (r : Request) (b : Byte) : Memory := [(0, b), (1, r.opc), (2, r.arg1), (3, r.arg2)]

/-- No terminator byte is stored in `RESP[0..k-1]`. -/
def NoTermBelow (s : State) (k : Nat) : Prop :=
  ∀ i, i < k → s.resp.read i ≠ some termByte

/-- A running transaction of the request `r` (R20, R24, R29, R32, R35). -/
structure Running (r : Request) (out : Bool) (s : State) : Prop where
  req : s.req = some r
  legal : RequestLegal s.cfg r
  frame : ∃ b, s.frame = frameCells r b
  valid : s.valid = false
  matched : s.matched = false
  frameOut : s.frameOut = out

/-- No failure so far, no byte read, and the long wait has not ended (R25, R26, R28, R34). -/
structure NothingRead (s : State) : Prop where
  err : s.err = FailCode.none.code
  count : s.count = 0#16
  sawTerm : s.sawTerm = false
  ack2TO : s.ack2TO = false

/-- The read loop of `r` has a byte to come (R104, R105). -/
def Reading (r : Request) (s : State) : Prop :=
  (r.mode = modeR ∧ s.count.toNat < r.n.toNat ∧ s.sawTerm = false) ∨
    (r.mode = modeT ∧ s.count.toNat < s.cfg.cap ∧ s.sawTerm = false ∧ NoTermBelow s s.count.toNat) ∨
    (r.mode = modeT ∧ s.count.toNat < s.cfg.cap ∧ s.sawTerm = true ∧ 1 ≤ s.count.toNat ∧
      s.resp.read (s.count.toNat - 1) = some termByte ∧ NoTermBelow s (s.count.toNat - 1))

/-- What a transaction of `r` that ended without a failure has received (R114): nothing in mode `W`, exactly
`N` bytes in mode `R`, and in mode `T` a first terminator and one byte behind it. -/
def Received (r : Request) (s : State) : Prop :=
  (r.mode = modeW ∧ s.count = 0#16) ∨
    (r.mode = modeR ∧ s.count.toNat = r.n.toNat) ∨
    (r.mode = modeT ∧ s.sawTerm = true ∧ 2 ≤ s.count.toNat ∧
      s.resp.read (s.count.toNat - 2) = some termByte ∧ NoTermBelow s (s.count.toNat - 2))

/-- What holds in each state of the state machine. -/
def PhaseFacts (p : Phase) (s : State) : Prop :=
  match p with
  | .idle =>
    s.req = none ∧ s.frame = [] ∧ NothingRead s ∧ s.valid = false ∧ s.matched = false ∧ s.fault = false ∧
      s.frameOut = false
  | .faDrive => ∃ r, Running r false s ∧ NothingRead s ∧ s.ack1TO = false
  | .faVerify => ∃ r, Running r true s ∧ NothingRead s ∧ s.ack1TO = false ∧ ∃ d, s.dl = some d
  | .xmit => ∃ r, Running r true s ∧ NothingRead s ∧ s.ack1TO = false
  | .ackW1 => ∃ r, Running r true s ∧ NothingRead s ∧ s.ack1TO = false ∧ ∃ d, s.dl = some d
  | .ackW2 => ∃ r, Running r true s ∧ NothingRead s ∧ r.mode ≠ modeW ∧ ∃ d, s.dl = some d
  | .read => ∃ r, Running r true s ∧ s.err = FailCode.none.code ∧ s.ack2TO = false ∧ Reading r s
  | .deassert => ∃ r, Running r true s ∧ (s.err = FailCode.none.code → Received r s)
  | .complete =>
    ∃ r, s.req = some r ∧ RequestLegal s.cfg r ∧ Received r s ∧ s.err = FailCode.none.code ∧
      s.valid = true ∧ s.fault = false ∧ s.frameOut = false ∧
      (s.matched = true ↔ r.kind = kindValidate ∧ s.resp.read 0 = some r.addr)
  | .failed =>
    (∃ r, s.req = some r) ∧ s.err ≠ FailCode.none.code ∧ s.valid = false ∧ s.matched = false ∧
      s.fault = false ∧ s.frameOut = false

/-- The invariant of the machine: no reserved code; what its state of the state machine says; `FRAME`
written whole or not at all; the written cells of `RESP` exactly those below `COUNT` (R33); and
`COUNT <= CAP` (R34). -/
structure Inv (s : State) : Prop where
  phase : ∃ p, s.phase = some p ∧ PhaseFacts p s
  frame : s.frame = [] ∨ s.frame.map Prod.fst = [0, 1, 2, 3]
  resp : s.resp.map Prod.fst = List.range s.count.toNat
  count : s.count.toNat ≤ s.cfg.cap

/-- The host keeps its duties at this step (R127): it presents nothing while the block is busy and reads no
cell of `RESP` at or above `COUNT`. -/
def HostKeepsDuty (s : State) : Prop :=
  (∀ w rest, s.host = .request w :: rest → ∃ p, s.phase = some p ∧ p.quiescent = true) ∧
    (∀ i rest, s.host = .readResp i :: rest → i < s.count.toNat)

/-- The frame line has been driven asserted and deasserted as often as the state of the machine says (R92). -/
def FrameBalance (s : State) : Prop :=
  ∃ p, s.phase = some p ∧
    nAssert s.cfg.frameAssertLevel s.trace =
      nDeassert s.cfg.frameAssertLevel s.trace +
        (match p with
          | .faVerify | .xmit | .ackW1 | .ackW2 | .read | .deassert => 1
          | .idle | .faDrive | .complete | .failed => 0)

/-- The host resets the block while it is busy (R131). -/
def ResetWhileBusy (s : State) : Prop :=
  ∃ rest p, s.host = .reset :: rest ∧ s.phase = some p ∧ p.quiescent = false

/-- The states of a run from reset, for any parameters, any environment and any host, in which no reset
falls on a busy block (R92, R142). -/
inductive CleanRun : State → Prop where
  | start (c : Params) (e : Env) (h : List HostInput) :
    CleanRun { State.reset with cfg := c, env := e, host := h }
  | step {s t : State} (run : CleanRun s) (clean : ¬ResetWhileBusy s) (next : step s = .next t) : CleanRun t

/-- What acceptance latches and clears, whatever its checks find (R75), and what it leaves alone: `t` is the
state after it. Outside its four cells `FRAME` reads as before. -/
structure Latched (r : Request) (b0 : Byte) (s t : State) : Prop where
  req : t.req = some r
  frame : ∀ a, t.frame.read a =
    if a = 0 then some b0 else if a = 1 then some r.opc else if a = 2 then some r.arg1
    else if a = 3 then some r.arg2 else s.frame.read a
  resp : ∀ a, t.resp.read a = none
  count : t.count = 0#16
  valid : t.valid = false
  matched : t.matched = false
  dl : t.dl = none
  ack1TO : t.ack1TO = false
  ack2TO : t.ack2TO = false
  sawTerm : t.sawTerm = false
  fault : t.fault = s.fault
  frameOut : t.frameOut = s.frameOut
  cfg : t.cfg = s.cfg
  host : t.host = s.host
  replies : t.replies = s.replies

/-- What the checks of acceptance leave (R75, R84, R119): an illegal request makes no port call; a transport
that is not ready makes one; an `AckAware` request reads the acknowledge line before the block goes on. -/
def Checked (policy : Policy) (legal : Bool) (s t : State) : Prop :=
  if legal = false then
    t.st = 9#4 ∧ t.err = 1#4 ∧ t.precheckWarn = false ∧ t.trace = s.trace ∧ t.env = s.env
  else if s.env.ready.headD (Config.freeReady s.trace.length) = false then
    t.st = 9#4 ∧ t.err = 2#4 ∧ t.precheckWarn = false ∧ t.trace = s.trace ++ [.ready false] ∧
      t.env = { s.env with ready := s.env.ready.tail }
  else
    t.st = 1#4 ∧ t.err = 0#4 ∧
    match policy with
    | .default =>
      t.precheckWarn = false ∧ t.trace = s.trace ++ [.ready true] ∧
        t.env = { s.env with ready := s.env.ready.tail }
    | .ackAware =>
      let a := s.env.ackLine.headD (Config.freeLine (s.trace.length + 1) .ack)
      t.precheckWarn = !a ∧ t.trace = s.trace ++ [.ready true, .readLine .ack a] ∧
        t.env = { s.env with ready := s.env.ready.tail, ackLine := s.env.ackLine.tail }

/-- `t` is `s` after the two port calls of a poll iteration on line `l`, which answered `v` and `n`. -/
def Polled (l : Line) (v : Bool) (n : Nat) (s : State) : State :=
  { s with
    trace := s.trace ++ [.readLine l v, .now n],
    env := { s.env.dropLine l with elapsed := s.env.elapsed.tail } }

/-- The answer of a clock read that is the second port call of a step. -/
def secondNow (s : State) : Nat :=
  lastNow s.trace + s.env.elapsed.headD (freeMove (s.trace.length + 1) (lastNow s.trace))

/-- The answers the pre-check takes from the acknowledge line (R84): one, `pre`, for `AckAware` alone. -/
def precheckReads : Policy → Bool → List Bool
  | .default, _ => []
  | .ackAware, pre => [pre]

/-- The environment lets a request of the given policy pass: the transport is ready, the frame line reads
back asserted at once, the exchange succeeds, and the acknowledge line is low at the first look of each wait
(`waits` of them); an `AckAware` pre-check reads `pre`. The clock and the bytes are left open. -/
structure Cooperates (policy : Policy) (pre : Bool) (waits : Nat) (s : State) : Prop where
  ready : ∃ rest, s.env.ready = true :: rest
  frameLine : ∃ rest, s.env.frameLine = s.cfg.frameAssertLevel :: rest
  exchange : ∃ rest, s.env.exchange = true :: rest
  ackLine : ∃ rest, s.env.ackLine =
    precheckReads policy pre ++ List.replicate waits false ++ rest

/-- The port calls of a transaction in a cooperating environment, up to the end of its acknowledge waits,
with the clock answers `n1` to `n3` and those of the waits. -/
def opening (policy : Policy) (pre level : Bool) (dest opc arg1 arg2 : Byte) (n1 n2 n3 : Nat)
    (waits : List Nat) : List Event :=
  [.ready true] ++ (precheckReads policy pre).map (.readLine .ack ·) ++
    [.setLine .frame level, .now n1, .readLine .frame level, .now n2,
      .exchange dest opc arg1 arg2 true, .now n3] ++
    waits.flatMap fun n => [.readLine .ack false, .now n]

/-- The pre-check warning a request of the given policy ends with. -/
def warnOf (policy : Policy) (pre : Bool) : Bool :=
  match policy with
  | .default => false
  | .ackAware => !pre

/-- The clock answers of a trace, in order. -/
def nows (trace : List Event) : List Nat :=
  trace.filterMap fun e => match e with | .now t => some t | _ => none

/-- The fairness law of the clock (R123), for runs whose clock is scripted for `n` calls: for every bound `B`
there is a number of calls of `Now()` after which every run has an answer of `B` or more, as its last one. -/
def FairClock (n : Nat) : Prop :=
  ∀ B, ∃ calls, ∀ (s t : State) (k : Nat), s.env.elapsed.length = n → run k s = .next t →
    (nows s.trace).length + calls ≤ (nows t.trace).length → B ≤ lastNow t.trace

/-- The level of the last `SetLine(FRAME, ·)` of a trace, if there is one. -/
def lastDrive (trace : List Event) : Option Bool :=
  trace.foldl (fun a e => match e with | .setLine .frame v => some v | _ => a) none

/-- Two states that differ at most in `FRAME[0]`, and there only before `XMIT` has overwritten it (R63). -/
structure SameButByte0 (s t : State) : Prop where
  rest : t = { s with frame := t.frame }
  frame : t.frame = s.frame ∨
    ∃ r b b', s.req = some r ∧ s.frame = frameCells r b ∧ t.frame = frameCells r b' ∧
      (s.phase = some .faDrive ∨ s.phase = some .faVerify ∨ s.phase = some .xmit ∨
        s.phase = some .deassert ∨ s.phase = some .complete ∨ s.phase = some .failed)

/-- The byte that comes next is the last of the read: the count is reached, the byte behind the terminator
is stored, or the buffer is full (R104, R105, R106). -/
def ReadEnds (r : Request) (s : State) : Prop :=
  (r.mode = modeR ∧ s.count.toNat + 1 = r.n.toNat) ∨
    (r.mode = modeT ∧ (s.sawTerm = true ∨ s.count.toNat + 1 = s.cfg.cap))

/-- The rows of the transition table of R22 that a block step makes, from `p` to `q`, with their conditions. -/
def BlockRow (s : State) (p q : Phase) : Prop :=
  (p = .faDrive ∧ q = .faVerify) ∨
  (p = .faVerify ∧ q = .faVerify ∧ s.lineAnswer .frame ≠ s.cfg.frameAssertLevel ∧
    ∃ d, s.dl = some d ∧ (s.callReadLine .frame).nowAnswer < d) ∨
  (p = .faVerify ∧ q = .xmit ∧ s.lineAnswer .frame = s.cfg.frameAssertLevel) ∨
  (p = .faVerify ∧ q = .deassert ∧ s.lineAnswer .frame ≠ s.cfg.frameAssertLevel ∧
    ∃ d, s.dl = some d ∧ d ≤ (s.callReadLine .frame).nowAnswer) ∨
  (p = .xmit ∧ q = .ackW1 ∧ s.exchangeAnswer = true) ∨
  (p = .xmit ∧ q = .deassert ∧ s.exchangeAnswer = false) ∨
  (p = .ackW1 ∧ q = .ackW1 ∧ s.lineAnswer .ack = true ∧
    ∃ d, s.dl = some d ∧ (s.callReadLine .ack).nowAnswer < d) ∨
  (p = .ackW1 ∧ q = .ackW2 ∧ (∃ r, s.req = some r ∧ (r.mode = modeR ∨ r.mode = modeT)) ∧
    (s.lineAnswer .ack = false ∨ ∃ d, s.dl = some d ∧ d ≤ (s.callReadLine .ack).nowAnswer)) ∨
  (p = .ackW1 ∧ q = .deassert ∧ (∃ r, s.req = some r ∧ r.mode = modeW) ∧
    (s.lineAnswer .ack = false ∨ ∃ d, s.dl = some d ∧ d ≤ (s.callReadLine .ack).nowAnswer)) ∨
  (p = .ackW2 ∧ q = .ackW2 ∧ s.lineAnswer .ack = true ∧
    ∃ d, s.dl = some d ∧ (s.callReadLine .ack).nowAnswer < d) ∨
  (p = .ackW2 ∧ q = .read ∧ s.lineAnswer .ack = false) ∨
  (p = .ackW2 ∧ q = .deassert ∧ s.lineAnswer .ack = true ∧
    ∃ d, s.dl = some d ∧ d ≤ (s.callReadLine .ack).nowAnswer) ∨
  (p = .read ∧ q = .read ∧ ∃ r b, s.req = some r ∧ s.byteAnswer = some b ∧ ¬ReadEnds r s) ∨
  (p = .read ∧ q = .deassert ∧ (s.byteAnswer = none ∨ ∃ r, s.req = some r ∧ ReadEnds r s)) ∨
  (p = .deassert ∧ q = .complete ∧ s.err = FailCode.none.code) ∨
  (p = .deassert ∧ q = .failed ∧ s.err ≠ FailCode.none.code)

end Sys2Proof.Machine
end

