-- ==== Sys2Proof/Certificates/Slice0/Obligations.lean ====
section
/-! DEFINITION. The statements about PPR-PE. Each docstring names the rule of spec/ it formalises, or the
model's choice it states. -/

open Sys2Proof Sys2Proof.Machine

/-! ### The request word -/

/-- R69: which words each form has, spelled as mask, match and further condition; that no word matches two
rows; and that a row matches a word whatever its bit 58 (`POLICY`) is. -/
def Obligations.RequestMapRows : Prop :=
  (∀ w : Word64, ∀ row ∈ tableRows, ∀ row' ∈ tableRows,
    w &&& row.1 = row.2 → w &&& row'.1 = row'.2 → row = row') ∧
  (∀ w : Word64, ∀ row ∈ tableRows,
    (w ^^^ 0x0400000000000000#64) &&& row.1 = row.2 ↔ w &&& row.1 = row.2) ∧
  (∀ cap w policy base addr b0 opc arg1 arg2,
    decode cap w = some (.execW policy base addr b0 opc arg1 arg2) ↔
      w &&& 0xFBFF000000000000#64 = 0x0000000000000000#64 ∧ addr.toNat + base.toNat ≤ 255 ∧
        policy = (if w.getLsbD 58 then .ackAware else .default) ∧ base = w.extractLsb' 40 8 ∧
        addr = w.extractLsb' 32 8 ∧ b0 = w.extractLsb' 24 8 ∧ opc = w.extractLsb' 16 8 ∧
        arg1 = w.extractLsb' 8 8 ∧ arg2 = w.extractLsb' 0 8) ∧
  (∀ cap w policy n base addr b0 opc arg1 arg2,
    decode cap w = some (.execR policy n base addr b0 opc arg1 arg2) ↔
      w &&& 0xFB00000000000000#64 = 0x0100000000000000#64 ∧ 1 ≤ n.toNat ∧ n.toNat ≤ cap ∧
        addr.toNat + base.toNat ≤ 255 ∧
        policy = (if w.getLsbD 58 then .ackAware else .default) ∧ n = w.extractLsb' 48 8 ∧
        base = w.extractLsb' 40 8 ∧ addr = w.extractLsb' 32 8 ∧ b0 = w.extractLsb' 24 8 ∧
        opc = w.extractLsb' 16 8 ∧ arg1 = w.extractLsb' 8 8 ∧ arg2 = w.extractLsb' 0 8) ∧
  (∀ cap w policy n base addr b0 opc arg1 arg2,
    decode cap w = some (.execT policy n base addr b0 opc arg1 arg2) ↔
      w &&& 0xFB00000000000000#64 = 0x0200000000000000#64 ∧ addr.toNat + base.toNat ≤ 255 ∧
        policy = (if w.getLsbD 58 then .ackAware else .default) ∧ n = w.extractLsb' 48 8 ∧
        base = w.extractLsb' 40 8 ∧ addr = w.extractLsb' 32 8 ∧ b0 = w.extractLsb' 24 8 ∧
        opc = w.extractLsb' 16 8 ∧ arg1 = w.extractLsb' 8 8 ∧ arg2 = w.extractLsb' 0 8) ∧
  (∀ cap w policy base addr b0 opc arg1 arg2,
    decode cap w = some (.validate policy base addr b0 opc arg1 arg2) ↔
      w &&& 0xFBFF000000000000#64 = 0x4101000000000000#64 ∧ addr.toNat + base.toNat ≤ 255 ∧
        policy = (if w.getLsbD 58 then .ackAware else .default) ∧ base = w.extractLsb' 40 8 ∧
        addr = w.extractLsb' 32 8 ∧ b0 = w.extractLsb' 24 8 ∧ opc = w.extractLsb' 16 8 ∧
        arg1 = w.extractLsb' 8 8 ∧ arg2 = w.extractLsb' 0 8)

/-- The lines of R72 build the word with the fields they write, `RSV = 0`; an absent `ackaware` gives
`POLICY = 0`, an absent `b0=` gives `B0 = 0`, an absent `n=` on `EXEC.T` gives `N = 0`. Log entry 18 says what
the model chose of a line's spelling. -/
def Obligations.AssemblerLinesBuildTheirWords : Prop :=
  ∀ (addr base opc arg1 arg2 n b0 : Byte) (ack : Bool) (ob0 on : Option Byte), b0 = ob0.getD 0#8 →
    let o : AsmOptions := { ackaware := ack, b0 := ob0.map BitVec.toNat }
    let policy : Policy := if ack then .ackAware else .default
    assemble (.execW addr.toNat base.toNat opc.toNat arg1.toNat arg2.toNat o) =
      some (encode (.execW policy base addr b0 opc arg1 arg2)) ∧
    assemble (.execR addr.toNat base.toNat opc.toNat arg1.toNat arg2.toNat n.toNat o) =
      some (encode (.execR policy n base addr b0 opc arg1 arg2)) ∧
    assemble (.execT addr.toNat base.toNat opc.toNat arg1.toNat arg2.toNat
        { o with n := on.map BitVec.toNat }) =
      some (encode (.execT policy (on.getD 0#8) base addr b0 opc arg1 arg2)) ∧
    assemble (.validate addr.toNat base.toNat opc.toNat arg1.toNat arg2.toNat o) =
      some (encode (.validate policy base addr b0 opc arg1 arg2))

/-- R70: the seven illegal classes are exactly the words that decode to no form, and acceptance fails such a
word with `INVALID_ARGUMENT` and no port call. -/
def Obligations.IllegalWordsFailWithoutPortCall : Prop :=
  (∀ (cap : Nat) (w : Word64),
    decode cap w = none ↔
      (w.extractLsb' 62 2 = 2#2 ∨ w.extractLsb' 62 2 = 3#2) ∨
      w.extractLsb' 59 3 ≠ 0#3 ∨
      w.extractLsb' 56 2 = 3#2 ∨
      (w.extractLsb' 62 2 = 0#2 ∧ w.extractLsb' 56 2 = 0#2 ∧ w.extractLsb' 48 8 ≠ 0#8) ∨
      (w.extractLsb' 62 2 = 0#2 ∧ w.extractLsb' 56 2 = 1#2 ∧
        (w.extractLsb' 48 8 = 0#8 ∨ cap < (w.extractLsb' 48 8).toNat)) ∨
      (w.extractLsb' 62 2 = 1#2 ∧ (w.extractLsb' 56 2 ≠ 1#2 ∨ w.extractLsb' 48 8 ≠ 1#8)) ∨
      255 < (w.extractLsb' 32 8).toNat + (w.extractLsb' 40 8).toNat) ∧
  (∀ (s : State) (w : Word64) (rest : List HostInput),
    Ready s → s.host = .request w :: rest → decode s.cfg.cap w = none →
      ∃ t, step s = .next t ∧ t.st = Phase.failed.code ∧ t.err = FailCode.invalidArgument.code ∧
        t.valid = false ∧ t.count = 0#16 ∧ t.trace = s.trace ∧ t.env = s.env)

/-- Decoding the word of a well-formed request gives the request back, for every form and every operand. -/
def Obligations.DecodeOfEncode : Prop :=
  ∀ (cap : Nat) (i : Instr), i.wf cap = true → decode cap (encode i) = some i

/-- A word that decodes is the word of the request it decodes to, and that request is well-formed. -/
def Obligations.EncodeOfDecode : Prop :=
  ∀ (cap : Nat) (w : Word64) (i : Instr), decode cap w = some i → encode i = w ∧ i.wf cap = true

/-- Words the spec spells out (40_transaction.md, 95_test_vectors.md) decode to the forms they stand for. -/
def Obligations.SpecWordsDecode : Prop :=
  decode 40 0x0000100300110500#64 = some (.execW .default 0x10#8 3#8 0#8 0x11#8 5#8 0#8) ∧
  decode 40 0x0102200200300000#64 = some (.execR .default 2#8 0x20#8 2#8 0#8 0x30#8 0#8 0#8) ∧
  decode 40 0x0207000100010000#64 = some (.execT .default 7#8 0#8 1#8 0#8 1#8 0#8 0#8) ∧
  decode 40 0x4501080500000000#64 = some (.validate .ackAware 8#8 5#8 0#8 0#8 0#8 0#8) ∧
  decode 40 0x00001003EE110500#64 = some (.execW .default 0x10#8 3#8 0xEE#8 0x11#8 5#8 0#8) ∧
  decode 40 0x0129000100000000#64 = none ∧
  decode 40 0x000010F000000000#64 = none

/-- R61: on a legal request the destination byte is the exact sum of the two bytes. -/
def Obligations.DestinationIsTheExactSum : Prop :=
  ∀ (cap : Nat) (i : Instr), i.wf cap = true →
    (Request.ofInstr i).destination.toNat = (Request.ofInstr i).addr.toNat + (Request.ofInstr i).base.toNat

/-- R73: the requests of a SCAN are, in ascending order of address, the `VALIDATE` words of the addresses
from `lo` to `hi`; each is presented at the first slot or after a wait; its result, from the `STATUS` words of
the states its requests ended in, is the list of addresses whose state has `MATCH = 1`, in that order. A wait
is for a quiescent state: while the block is busy it is the block's own step and the slot stays, and in a
quiescent state the slot is taken off and nothing else happens. The host's slots are the model's choice (log
entries 5 and 22). -/
def Obligations.ScanIsASequenceOfValidates : Prop :=
  (∀ (cap : Nat) (policy : Policy) (base opc arg1 arg2 lo hi : Byte),
    (scanAddresses lo hi).map BitVec.toNat = (List.range (hi.toNat + 1)).filter (fun a => lo.toNat ≤ a) ∧
    scanProgram policy base opc arg1 arg2 lo hi =
      (scanAddresses lo hi).flatMap (fun a =>
        [.request (encode (.validate policy base a 0#8 opc arg1 arg2)), .await, .readStatus]) ∧
    ∀ a ∈ scanAddresses lo hi, a.toNat + base.toNat ≤ 255 →
      decode cap (encode (.validate policy base a 0#8 opc arg1 arg2)) =
        some (.validate policy base a 0#8 opc arg1 arg2)) ∧
  (∀ (lo hi : Byte) (ends : List State),
    (scanResult lo hi (ends.map State.status)).Sublist (scanAddresses lo hi) ∧
    ∀ a, a ∈ scanResult lo hi (ends.map State.status) ↔
      ∃ (i : Nat) (e : State), (scanAddresses lo hi)[i]? = some a ∧ ends[i]? = some e ∧ e.matched = true) ∧
  ∀ (s : State) (p : Phase) (rest : List HostInput), s.host = .await :: rest → s.phase = some p →
    (p.quiescent = true → step s = .next { s with host := rest }) ∧
    (p.quiescent = false → s.fault = false →
      step s = blockStep s ∧
        ∀ t, step s = .next t → t.host = s.host ∧ step { s with host := [] } = .next { t with host := [] })

/-! ### Reset -/

/-- R130: reset puts every field of the record at its reset value, at any time, and makes no port call; the
block is then ready to accept. What it leaves alone is R131's list (log entry 16). -/
def Obligations.ResetPutsEveryFieldAtItsResetValue : Prop :=
  ∀ (s : State) (rest : List HostInput), s.host = .reset :: rest →
    ∃ t, step s = .next t ∧ t.st = 0#4 ∧ t.err = 0#4 ∧ t.count = 0#16 ∧ t.valid = false ∧
      t.ack1TO = false ∧ t.ack2TO = false ∧ t.precheckWarn = false ∧ t.sawTerm = false ∧
      t.matched = false ∧ t.fault = false ∧ t.frameOut = false ∧ t.req = none ∧
      (∀ a, t.frame.read a = none) ∧ (∀ a, t.resp.read a = none) ∧ t.dl = none ∧ t.status = 0#32 ∧
      t.trace = s.trace ∧ t.cfg = s.cfg ∧ t.env = s.env ∧ t.host = rest ∧ Ready t

/-- The reset state satisfies the machine's invariant, and so it does for any parameters, environment and
host. -/
def Obligations.ResetStateMeetsInvariant : Prop :=
  Inv State.reset ∧
    ∀ (c : Params) (e : Env) (h : List HostInput), Inv { State.reset with cfg := c, env := e, host := h }

/-! ### Presenting a request -/

/-- When the host's next slot is a request word that decodes to `i`, the step is `exec i` of the state with
that slot taken off; so is the step after `withFetchWord`. That a request comes as a host slot is the model's
choice (log entries 5 and 6). -/
def Obligations.StepRunsTheDecodedRequest : Prop :=
  (∀ (s : State) (w : Word64) (rest : List HostInput) (i : Instr),
    s.host = .request w :: rest → decode s.cfg.cap w = some i →
      step s = exec i { s with host := rest }) ∧
  (∀ (s : State) (nbits w : Nat) (i : Instr),
    decode s.cfg.cap (BitVec.ofNat 64 (w % 2 ^ nbits)) = some i →
      step (s.withFetchWord nbits w) = exec i s)

/-- R75: a request word presented while the block is quiescent and not faulted is accepted in one step,
whatever the word: its fields are latched, the result is cleared, and the checks are made in order. No step
but an acceptance brings up `BUS_UNAVAILABLE`. -/
def Obligations.AcceptanceOfAnyWord : Prop :=
  (∀ (s : State) (w : Word64) (rest : List HostInput), Ready s → s.host = .request w :: rest →
    ∃ t, step s = .next t ∧
      Latched
        { kind := w.extractLsb' 62 2, policy := if w.getLsbD 58 then .ackAware else .default,
          mode := w.extractLsb' 56 2, n := w.extractLsb' 48 8, base := w.extractLsb' 40 8,
          addr := w.extractLsb' 32 8, opc := w.extractLsb' 16 8, arg1 := w.extractLsb' 8 8,
          arg2 := w.extractLsb' 0 8 }
        (w.extractLsb' 24 8) { s with host := rest } t ∧
      Checked (if w.getLsbD 58 then .ackAware else .default) (decode s.cfg.cap w).isSome s t) ∧
  (∀ s t : State, step s = .next t → t.err = FailCode.busUnavailable.code →
    s.err = FailCode.busUnavailable.code ∨ ∃ w rest, s.host = .request w :: rest)

/-- `EXEC.W` is accepted in every quiescent state: what it latches (`KIND` and `MODE` 0, `N` 0) and what its
checks leave (R75, R80). An operand pair whose sum does not fit a byte is failed as illegal (log entry 20). That
executing a form is its acceptance is the model's reading (log entry 1). -/
def Obligations.ExecWIsAccepted : Prop :=
  ∀ (s : State) (policy : Policy) (base addr b0 opc arg1 arg2 : Byte), Ready s →
    ∃ t, exec (.execW policy base addr b0 opc arg1 arg2) s = .next t ∧
      Latched ⟨0#2, policy, 0#2, 0#8, base, addr, opc, arg1, arg2⟩ b0 s t ∧
      Checked policy (decide (addr.toNat + base.toNat ≤ 255)) s t

/-- `EXEC.R` is accepted in every quiescent state (R75, R81); a count of 0 or above `CAP` is failed as
illegal. -/
def Obligations.ExecRIsAccepted : Prop :=
  ∀ (s : State) (policy : Policy) (n base addr b0 opc arg1 arg2 : Byte), Ready s →
    ∃ t, exec (.execR policy n base addr b0 opc arg1 arg2) s = .next t ∧
      Latched ⟨0#2, policy, 1#2, n, base, addr, opc, arg1, arg2⟩ b0 s t ∧
      Checked policy
        (decide (1 ≤ n.toNat ∧ n.toNat ≤ s.cfg.cap ∧ addr.toNat + base.toNat ≤ 255)) s t

/-- `EXEC.T` is accepted in every quiescent state, with any `N` (R75, R82). -/
def Obligations.ExecTIsAccepted : Prop :=
  ∀ (s : State) (policy : Policy) (n base addr b0 opc arg1 arg2 : Byte), Ready s →
    ∃ t, exec (.execT policy n base addr b0 opc arg1 arg2) s = .next t ∧
      Latched ⟨0#2, policy, 2#2, n, base, addr, opc, arg1, arg2⟩ b0 s t ∧
      Checked policy (decide (addr.toNat + base.toNat ≤ 255)) s t

/-- `VALIDATE` is accepted in every quiescent state, as a fixed-count request of one byte (R75, R83). -/
def Obligations.ValidateIsAccepted : Prop :=
  ∀ (s : State) (policy : Policy) (base addr b0 opc arg1 arg2 : Byte), Ready s →
    ∃ t, exec (.validate policy base addr b0 opc arg1 arg2) s = .next t ∧
      Latched ⟨1#2, policy, 1#2, 1#8, base, addr, opc, arg1, arg2⟩ b0 s t ∧
      Checked policy (decide (addr.toNat + base.toNat ≤ 255)) s t

/-- R76: a request presented while the block is busy is not accepted and not queued: it only sets `FAULT`,
and after it the block takes no step, with or without a host that presents a further request. That having no
step is the fault `concurrentRequest` of `step` is the model's reading (log entry 9). -/
def Obligations.BusyRequestIsAModelFault : Prop :=
  (∀ (s : State) (p : Phase) (w : Word64) (rest : List HostInput),
    s.phase = some p → p.quiescent = false → s.fault = false → s.host = .request w :: rest →
      step s = .next { s with host := rest, fault := true } ∧
      ∀ i, exec i s = .next { s with fault := true }) ∧
  ∀ (t : State) (p : Phase), t.phase = some p → t.fault = true →
    (t.host = [] → step t = .fault .concurrentRequest) ∧
    (∀ rest, t.host = .idle :: rest → step t = .fault .concurrentRequest) ∧
    (∀ v rest, t.host = .request v :: rest → step t = .fault .concurrentRequest) ∧
    ∀ i, exec i t = .fault .concurrentRequest

/-- R30: `FAULT` is set by nothing but a request while the block is busy; while it is set no step changes
the block, and nothing but reset clears it. -/
def Obligations.FaultStandsUntilReset : Prop :=
  (∀ s t : State, step s = .next t → s.fault = false → t.fault = true →
    ∃ w rest p, s.host = .request w :: rest ∧ s.phase = some p ∧ p.quiescent = false) ∧
  (∀ s t : State, step s = .next t → s.fault = true →
    (∃ rest, s.host = .reset :: rest ∧ t.fault = false) ∨
      t = { s with host := t.host, replies := t.replies })

/-- R23 and R115: no rule writes a reserved `ST` or a reserved `ERR`, and a state with either (R117,
`RESERVED_STATE`) has no step but reset and the host's reads. That this comes before `FAULT` is the model's
choice (log entry 12). -/
def Obligations.ReservedStateIsAModelFault : Prop :=
  (∀ s t : State, step s = .next t →
    (t.st = s.st ∨ t.st.toNat ≤ 9) ∧ (t.err = s.err ∨ t.err.toNat ≤ 7)) ∧
  (∀ s : State, 10 ≤ s.st.toNat ∨ 8 ≤ s.err.toNat →
    (s.host = [] → step s = .fault .reservedState) ∧
    (∀ rest, s.host = .idle :: rest ∨ s.host = .await :: rest → step s = .fault .reservedState) ∧
    (∀ w rest, s.host = .request w :: rest → step s = .fault .reservedState) ∧
    (∀ i, exec i s = .fault .reservedState))

/-- Acceptance keeps nothing of an earlier transaction: two quiescent states that agree in the parameters,
the environment, the trace and the frame line give the same answer to a request, whatever their results,
flags, `RESP`, `FRAME` and `REQ` held (R58, R135). -/
def Obligations.AcceptanceForgetsTheLastTransaction : Prop :=
  ∀ (s s' : State) (i : Instr), Ready s → Ready s' →
    (s.frame = [] ∨ s.frame.map Prod.fst = [0, 1, 2, 3]) →
    (s'.frame = [] ∨ s'.frame.map Prod.fst = [0, 1, 2, 3]) →
    s.cfg = s'.cfg → s.env = s'.env → s.trace = s'.trace → s.frameOut = s'.frameOut →
    s.host = s'.host → s.replies = s'.replies →
      exec i s = exec i s'

/-! ### The steps of a transaction -/

/-- R85: the whole next state of the step in `FA_DRIVE`. -/
def Obligations.FaDriveAssertsTheFrameLine : Prop :=
  ∀ s : State, BlockIn .faDrive s →
    step s = .next { s with
      st := 2#4, frameOut := true, dl := some (secondNow s + s.cfg.tSettle),
      trace := s.trace ++ [.setLine .frame s.cfg.frameAssertLevel, .now (secondNow s)],
      env := { s.env with elapsed := s.env.elapsed.tail } }

/-- R86: the whole next state of the step in `FA_VERIFY`. -/
def Obligations.FaVerifyPollsTheReadback : Prop :=
  ∀ (s : State) (d : Nat), BlockIn .faVerify s → s.dl = some d →
    let v := s.env.frameLine.headD (Config.freeLine s.trace.length .frame)
    let n := secondNow s
    step s = .next
      (if v = s.cfg.frameAssertLevel then { Polled .frame v n s with st := 3#4 }
       else if d ≤ n then { Polled .frame v n s with st := 7#4, err := 3#4 }
       else Polled .frame v n s)

/-- R87: the whole next state of the step in `XMIT`. `FRAME[0]` becomes the destination byte and every other
cell of `FRAME` reads as before; the four bytes go out in index order; no clock is read after `Err`. -/
def Obligations.XmitSendsTheFrame : Prop :=
  ∀ (s : State) (r : Request) (b1 b2 b3 : Byte), BlockIn .xmit s → s.req = some r →
    s.frame.read 1 = some b1 → s.frame.read 2 = some b2 → s.frame.read 3 = some b3 →
    ∃ t dest, step s = .next t ∧ dest.toNat = (r.addr.toNat + r.base.toNat) % 256 ∧
      (∀ a, t.frame.read a = if a = 0 then some dest else s.frame.read a) ∧
      t = if s.env.exchange.headD (Config.freeExchange s.trace.length) = true then
            { s with
              frame := t.frame, st := 4#4, dl := some (secondNow s + s.cfg.tAck1.at r.policy),
              trace := s.trace ++ [.exchange dest b1 b2 b3 true, .now (secondNow s)],
              env := { s.env with exchange := s.env.exchange.tail, elapsed := s.env.elapsed.tail } }
          else
            { s with
              frame := t.frame, st := 7#4, err := 4#4, count := 0#16,
              trace := s.trace ++ [.exchange dest b1 b2 b3 false],
              env := { s.env with exchange := s.env.exchange.tail } }

/-- R95: the whole next state of the step in `ACK_W1`. -/
def Obligations.AckW1WaitsShort : Prop :=
  ∀ (s : State) (r : Request) (d : Nat), BlockIn .ackW1 s → s.req = some r → s.dl = some d →
    let v := s.env.ackLine.headD (Config.freeLine s.trace.length .ack)
    let n := secondNow s
    let out := s.ack1TO || v
    step s = .next
      (if v = true ∧ n < d then Polled .ack v n s
       else if r.mode = 0#2 then
         if out = true ∧ s.cfg.noackWriteValid = false then
           { Polled .ack v n s with ack1TO := out, st := 7#4, err := 5#4 }
         else { Polled .ack v n s with ack1TO := out, st := 7#4 }
       else
         { Polled .ack v n s with ack1TO := out, st := 5#4, dl := some (n + s.cfg.tAck2.at r.policy) })

/-- R96: the whole next state of the step in `ACK_W2`. -/
def Obligations.AckW2WaitsLong : Prop :=
  ∀ (s : State) (d : Nat), BlockIn .ackW2 s → s.dl = some d →
    let v := s.env.ackLine.headD (Config.freeLine s.trace.length .ack)
    let n := secondNow s
    step s = .next
      (if v = false then { Polled .ack v n s with st := 6#4 }
       else if d ≤ n then { Polled .ack v n s with ack2TO := true, st := 7#4, err := 5#4 }
       else Polled .ack v n s)

/-- R104: the whole next state of a fixed-count read step. The byte goes to `RESP[COUNT]`, and every other
cell of `RESP` reads as before. -/
def Obligations.ReadFixedCountStep : Prop :=
  ∀ (s : State) (r : Request), BlockIn .read s → s.req = some r → r.mode = 1#2 →
    s.count.toNat < s.cfg.cap →
    let e := { s.env with byte := s.env.byte.tail }
    match s.env.byte.headD (Config.freeByte s.trace.length) with
    | none =>
      step s = .next { s with
        st := 7#4, err := 6#4, env := e,
        trace := s.trace ++ [.readByte (s.cfg.tByte.at r.policy) none] }
    | some b =>
      ∃ t, step s = .next t ∧ t.count.toNat = s.count.toNat + 1 ∧
        (∀ a, t.resp.read a = if a = s.count.toNat then some b else s.resp.read a) ∧
        t = { s with
          resp := t.resp, count := t.count, env := e,
          st := if s.count.toNat + 1 = r.n.toNat then 7#4 else 6#4,
          trace := s.trace ++ [.readByte (s.cfg.tByte.at r.policy) (some b)] }

/-- R105: the whole next state of a terminator read step. -/
def Obligations.ReadTerminatorStep : Prop :=
  ∀ (s : State) (r : Request), BlockIn .read s → s.req = some r → r.mode = 2#2 →
    s.count.toNat < s.cfg.cap →
    let e := { s.env with byte := s.env.byte.tail }
    match s.env.byte.headD (Config.freeByte s.trace.length) with
    | none =>
      step s = .next { s with
        st := 7#4, err := 6#4, env := e,
        trace := s.trace ++ [.readByte (s.cfg.tByte.at r.policy) none] }
    | some b =>
      ∃ t, step s = .next t ∧ t.count.toNat = s.count.toNat + 1 ∧
        (∀ a, t.resp.read a = if a = s.count.toNat then some b else s.resp.read a) ∧
        t = { s with
          resp := t.resp, count := t.count, env := e,
          sawTerm := s.sawTerm || b == 0#8,
          st := if s.sawTerm = false ∧ s.count.toNat + 1 ≠ s.cfg.cap then 6#4 else 7#4,
          err := if s.sawTerm = false ∧ s.count.toNat + 1 = s.cfg.cap then 7#4 else s.err,
          trace := s.trace ++ [.readByte (s.cfg.tByte.at r.policy) (some b)] }

/-- R90, with the address check of R110: the whole next state of the step in `DEASSERT`. -/
def Obligations.DeassertSettlesTheResult : Prop :=
  ∀ (s : State) (r : Request) (b : Byte), BlockIn .deassert s → s.req = some r →
    (s.err = 0#4 → r.kind = 1#2 → s.resp.read 0 = some b) →
    step s = .next
      (if s.err = 0#4 then
        { s with
          st := 8#4, valid := true, frameOut := false,
          matched := if r.kind = 1#2 then b == r.addr else s.matched,
          trace := s.trace ++ [.setLine .frame (!s.cfg.frameAssertLevel)] }
       else
        { s with
          st := 9#4, valid := false, matched := false, frameOut := false,
          trace := s.trace ++ [.setLine .frame (!s.cfg.frameAssertLevel)] })

/-- R22: every step either leaves `ST` as it is without a step of the block (a host read, a pass in a
quiescent state, the end of a wait, the setting of `FAULT`), or is reset, or makes a row of the table. -/
def Obligations.OnlyTheTransitionsOfTheTable : Prop :=
  ∀ s t : State, Inv s → step s = .next t →
    ∃ p q, s.phase = some p ∧ t.phase = some q ∧
      (t = { s with host := t.host, replies := t.replies, fault := t.fault } ∨
        (∃ rest, s.host = .reset :: rest ∧ q = .idle) ∨
        (∃ w rest, s.host = .request w :: rest ∧ p.quiescent = true ∧
          ((q = .failed ∧ (decode s.cfg.cap w = none ∨ s.readyAnswer = false)) ∨
            (q = .faDrive ∧ decode s.cfg.cap w ≠ none ∧ s.readyAnswer = true))) ∨
        BlockRow s p q)

/-- A failure raised by a block step (R120, R121): the next state is `DEASSERT`; the step after it makes the
one deasserting call and ends `FAILED` with the same code, count, bytes and flags. -/
def Obligations.FailureEntryAndReturn : Prop :=
  ∀ s t : State, s.host = [] → s.err = FailCode.none.code → step s = .next t →
    t.err ≠ FailCode.none.code →
      t.st = Phase.deassert.code ∧
      step t = .next { t with
        st := Phase.failed.code, valid := false, matched := false, frameOut := false,
        trace := t.trace ++ [.setLine .frame (!t.cfg.frameAssertLevel)] }

/-! ### Results -/

/-- R98: the result of a mode `W` transaction whose short wait times out, two steps later. -/
def Obligations.NoAcknowledgeInModeW : Prop :=
  ∀ (s : State) (r : Request) (d : Nat), Inv s → BlockIn .ackW1 s → s.req = some r → r.mode = 0#2 →
    s.dl = some d → s.env.ackLine.headD (Config.freeLine s.trace.length .ack) = true → d ≤ secondNow s →
    ∃ t, run 2 s = .next t ∧ t.valid = s.cfg.noackWriteValid ∧ t.ack1TO = true ∧ t.count = 0#16 ∧
      t.err = (if s.cfg.noackWriteValid = true then 0#4 else 5#4) ∧
      t.st = (if s.cfg.noackWriteValid = true then 8#4 else 9#4) ∧ t.frameOut = false

/-- R99: the result of a mode `R` or `T` transaction whose long wait times out, two steps later. -/
def Obligations.NoAcknowledgeInReadModes : Prop :=
  ∀ (s : State) (d : Nat), Inv s → BlockIn .ackW2 s → s.dl = some d →
    s.env.ackLine.headD (Config.freeLine s.trace.length .ack) = true → d ≤ secondNow s →
    ∃ t, run 2 s = .next t ∧ t.valid = false ∧ t.count = 0#16 ∧ t.err = 5#4 ∧ t.ack2TO = true ∧
      t.ack1TO = s.ack1TO ∧ t.st = 9#4 ∧ t.frameOut = false

/-- R103: a failed byte read in either mode stores nothing, keeps the count and the bytes already in `RESP`,
and ends invalid two steps later. -/
def Obligations.FailedReadTruncates : Prop :=
  ∀ s : State, Inv s → BlockIn .read s →
    s.env.byte.headD (Config.freeByte s.trace.length) = none →
    ∃ t, run 2 s = .next t ∧ t.err = 6#4 ∧ t.valid = false ∧ t.st = 9#4 ∧ t.count = s.count ∧
      t.resp = s.resp ∧ t.sawTerm = s.sawTerm ∧ t.frameOut = false

/-- R106: in mode `T` a stored byte that fills the buffer with the read unfinished ends in
`BUFFER_OVERFLOW`, whether that byte was the terminator or not, and no further byte is read. -/
def Obligations.UnfinishedFullBufferOverflows : Prop :=
  ∀ (s : State) (r : Request) (b : Byte), BlockIn .read s → s.req = some r → r.mode = 2#2 →
    s.sawTerm = false → s.count.toNat + 1 = s.cfg.cap →
    s.env.byte.headD (Config.freeByte s.trace.length) = some b →
    ∃ t, run 2 s = .next t ∧ t.err = 7#4 ∧ t.valid = false ∧ t.st = 9#4 ∧ t.count.toNat = s.cfg.cap ∧
      t.resp.read s.count.toNat = some b ∧ t.sawTerm = (b == 0#8) ∧ t.env.byte = s.env.byte.tail ∧
      t.trace = s.trace ++
        [.readByte (s.cfg.tByte.at r.policy) (some b), .setLine .frame (!s.cfg.frameAssertLevel)]

/-- The byte after the terminator is stored and nothing else depends on it (R112): two states that differ
only in that coming byte end in states that differ only in `RESP` and in the trace's record of it. -/
def Obligations.TrailingByteIsNotExamined : Prop :=
  ∀ (s : State) (r : Request) (b c : Byte) (rest : List (Option Byte)), Inv s → BlockIn .read s →
    s.req = some r → r.mode = 2#2 → s.sawTerm = true → s.env.byte = some b :: rest →
    ∃ t u, run 2 s = .next t ∧ run 2 { s with env := { s.env with byte := some c :: rest } } = .next u ∧
      t.st = 8#4 ∧ t.valid = true ∧ u = { t with resp := u.resp, trace := u.trace } ∧
      t.resp.read (t.count.toNat - 1) = some b ∧ u.resp.read (t.count.toNat - 1) = some c ∧
      ∀ a, a ≠ t.count.toNat - 1 → u.resp.read a = t.resp.read a

/-- The result of a transaction is final once the block is quiescent, and stays until the next request or a
reset (R78): no other step changes it or leaves the quiescent state, and none makes a port call (R129). -/
def Obligations.ResultIsFinalWhenQuiescent : Prop :=
  ∀ (s t : State) (p : Phase), s.phase = some p → p.quiescent = true →
    (∀ w rest, s.host ≠ .request w :: rest) → (∀ rest, s.host ≠ .reset :: rest) → step s = .next t →
      t.result = s.result ∧ t.phase = some p ∧ t.trace = s.trace

/-! ### Whole transactions -/

/-- `EXEC.W` runs to `COMPLETE` in a cooperating environment: the port calls it makes, and its result (R78,
R80). Here and below the environment is a script, the model's choice (log entry 3). -/
def Obligations.ExecWCompletes : Prop :=
  ∀ (s : State) (policy : Policy) (pre : Bool) (base addr b0 opc arg1 arg2 : Byte), Ready s → s.host = [] →
    (s.frame = [] ∨ s.frame.map Prod.fst = [0, 1, 2, 3]) → addr.toNat + base.toNat ≤ 255 →
    Cooperates policy pre 1 s →
    ∃ s1 t dest n1 n2 n3 n4, exec (.execW policy base addr b0 opc arg1 arg2) s = .next s1 ∧
      run 5 s1 = .next t ∧ dest.toNat = addr.toNat + base.toNat ∧ t.st = 8#4 ∧ t.valid = true ∧
      t.err = 0#4 ∧ t.count = 0#16 ∧ t.ack1TO = false ∧ t.ack2TO = false ∧
      t.precheckWarn = warnOf policy pre ∧ t.sawTerm = false ∧ t.matched = false ∧ t.frameOut = false ∧
      t.trace = s.trace ++ opening policy pre s.cfg.frameAssertLevel dest opc arg1 arg2 n1 n2 n3 [n4] ++
        [.setLine .frame (!s.cfg.frameAssertLevel)]

/-- `EXEC.R` runs to `COMPLETE` in a cooperating environment that gives `N` bytes: its port calls, and
exactly those bytes, in arrival order, with `COUNT = N` (R46, R81), and the rest of its result (R78). -/
def Obligations.ExecRCompletes : Prop :=
  ∀ (s : State) (policy : Policy) (pre : Bool) (n base addr b0 opc arg1 arg2 : Byte) (bs : List Byte)
    (rest : List (Option Byte)), Ready s → s.host = [] →
    (s.frame = [] ∨ s.frame.map Prod.fst = [0, 1, 2, 3]) → addr.toNat + base.toNat ≤ 255 →
    bs.length = n.toNat → 1 ≤ n.toNat → n.toNat ≤ s.cfg.cap → Cooperates policy pre 2 s →
    s.env.byte = bs.map some ++ rest →
    ∃ s1 t dest n1 n2 n3 n4 n5, exec (.execR policy n base addr b0 opc arg1 arg2) s = .next s1 ∧
      run (6 + n.toNat) s1 = .next t ∧ dest.toNat = addr.toNat + base.toNat ∧ t.st = 8#4 ∧
      t.valid = true ∧ t.err = 0#4 ∧ t.count.toNat = n.toNat ∧ (∀ i : Nat, t.resp.read i = bs[i]?) ∧
      t.ack1TO = false ∧ t.ack2TO = false ∧ t.precheckWarn = warnOf policy pre ∧ t.sawTerm = false ∧
      t.matched = false ∧ t.frameOut = false ∧ t.env.byte = rest ∧
      t.trace = s.trace ++ opening policy pre s.cfg.frameAssertLevel dest opc arg1 arg2 n1 n2 n3 [n4, n5] ++
        bs.map (fun b => .readByte (s.cfg.tByte.at policy) (some b)) ++
        [.setLine .frame (!s.cfg.frameAssertLevel)]

/-- `EXEC.T` runs to `COMPLETE` in a cooperating environment whose bytes hold a terminator and one byte
behind it within `CAP`: it stores them all and reads nothing more (R82); the rest of its result (R78). -/
def Obligations.ExecTCompletes : Prop :=
  ∀ (s : State) (policy : Policy) (pre : Bool) (n base addr b0 opc arg1 arg2 c : Byte) (s0 : List Byte)
    (rest : List (Option Byte)), Ready s → s.host = [] →
    (s.frame = [] ∨ s.frame.map Prod.fst = [0, 1, 2, 3]) → addr.toNat + base.toNat ≤ 255 →
    0#8 ∉ s0 → s0.length + 2 ≤ s.cfg.cap → Cooperates policy pre 2 s →
    s.env.byte = (s0 ++ [0#8, c]).map some ++ rest →
    ∃ s1 t dest n1 n2 n3 n4 n5, exec (.execT policy n base addr b0 opc arg1 arg2) s = .next s1 ∧
      run (8 + s0.length) s1 = .next t ∧ dest.toNat = addr.toNat + base.toNat ∧ t.st = 8#4 ∧
      t.valid = true ∧ t.err = 0#4 ∧ t.count.toNat = s0.length + 2 ∧
      (∀ i : Nat, t.resp.read i = (s0 ++ [0#8, c])[i]?) ∧ t.ack1TO = false ∧ t.ack2TO = false ∧
      t.precheckWarn = warnOf policy pre ∧ t.sawTerm = true ∧ t.matched = false ∧
      t.frameOut = false ∧ t.env.byte = rest ∧
      t.trace = s.trace ++ opening policy pre s.cfg.frameAssertLevel dest opc arg1 arg2 n1 n2 n3 [n4, n5] ++
        (s0 ++ [0#8, c]).map (fun b => .readByte (s.cfg.tByte.at policy) (some b)) ++
        [.setLine .frame (!s.cfg.frameAssertLevel)]

/-- `VALIDATE` runs to `COMPLETE` in a cooperating environment that gives a byte, and `MATCH` says whether
that byte is the assigned address, not the destination (R83, R110); the rest of its result (R78). -/
def Obligations.ValidateCompletes : Prop :=
  ∀ (s : State) (policy : Policy) (pre : Bool) (base addr b0 opc arg1 arg2 b : Byte)
    (rest : List (Option Byte)), Ready s → s.host = [] →
    (s.frame = [] ∨ s.frame.map Prod.fst = [0, 1, 2, 3]) → addr.toNat + base.toNat ≤ 255 →
    Cooperates policy pre 2 s → s.env.byte = some b :: rest →
    ∃ s1 t dest n1 n2 n3 n4 n5, exec (.validate policy base addr b0 opc arg1 arg2) s = .next s1 ∧
      run 7 s1 = .next t ∧ dest.toNat = addr.toNat + base.toNat ∧ t.st = 8#4 ∧ t.valid = true ∧
      t.err = 0#4 ∧ t.count = 1#16 ∧ (∀ i : Nat, t.resp.read i = [b][i]?) ∧ t.ack1TO = false ∧
      t.ack2TO = false ∧ t.precheckWarn = warnOf policy pre ∧ t.sawTerm = false ∧
      (t.matched = true ↔ b = addr) ∧
      t.frameOut = false ∧ t.env.byte = rest ∧
      t.trace = s.trace ++ opening policy pre s.cfg.frameAssertLevel dest opc arg1 arg2 n1 n2 n3 [n4, n5] ++
        [.readByte (s.cfg.tByte.at policy) (some b), .setLine .frame (!s.cfg.frameAssertLevel)]

/-- R107: the fixed-count termination law, from the hit of the long wait; and its `N = 0` case, which is
`EXEC.W`, from the hit of the short wait. -/
def Obligations.FixedCountTermination : Prop :=
  (∀ (s : State) (r : Request) (bs : List Byte) (rest : List (Option Byte)), Inv s → BlockIn .ackW2 s →
    s.req = some r → r.kind = 0#2 → r.mode = 1#2 →
    s.env.ackLine.headD (Config.freeLine s.trace.length .ack) = false →
    s.env.byte = bs.map some ++ none :: rest →
    (r.n.toNat ≤ bs.length →
      ∃ t, run (r.n.toNat + 2) s = .next t ∧ t.st = 8#4 ∧ t.valid = true ∧ t.count.toNat = r.n.toNat ∧
        ∀ i : Nat, t.resp.read i = (bs.take r.n.toNat)[i]?) ∧
    (bs.length < r.n.toNat →
      ∃ t, run (bs.length + 3) s = .next t ∧ t.st = 9#4 ∧ t.err = 6#4 ∧ t.valid = false ∧
        t.count.toNat = bs.length ∧ ∀ i : Nat, t.resp.read i = bs[i]?)) ∧
  (∀ (s : State) (r : Request), Inv s → BlockIn .ackW1 s → s.req = some r → r.mode = 0#2 →
    s.env.ackLine.headD (Config.freeLine s.trace.length .ack) = false →
      ∃ t, run 2 s = .next t ∧ t.st = 8#4 ∧ t.valid = true ∧ t.count = 0#16 ∧ t.env.byte = s.env.byte)

/-- R108: the terminator law, from the hit of the long wait. -/
def Obligations.TerminatorLaw : Prop :=
  ∀ (s : State) (r : Request) (s0 : List Byte) (c : Byte) (rest : List (Option Byte)), Inv s →
    BlockIn .ackW2 s → s.req = some r → r.mode = 2#2 →
    s.env.ackLine.headD (Config.freeLine s.trace.length .ack) = false →
    0#8 ∉ s0 → s0.length + 2 ≤ s.cfg.cap → s.env.byte = (s0 ++ [0#8, c]).map some ++ rest →
      ∃ t, run (s0.length + 4) s = .next t ∧ t.st = 8#4 ∧ t.valid = true ∧
        t.count.toNat = s0.length + 2 ∧ (∀ i : Nat, t.resp.read i = (s0 ++ [0#8, c])[i]?) ∧
        t.env.byte = rest

/-- R109: a read loop ends: in mode `R` after at most `N` steps, in mode `T` after at most `CAP`, whatever
the environment answers. -/
def Obligations.ReadingEnds : Prop :=
  ∀ (s : State) (r : Request), Inv s → BlockIn .read s → s.req = some r →
    ∃ k t, run k s = .next t ∧ t.phase = some .deassert ∧
      k ≤ (if r.mode = 1#2 then r.n.toNat else s.cfg.cap) - s.count.toNat

/-- A poll takes another iteration exactly when the line missed the wanted level and the clock sample was
before the deadline (R93, R94). -/
def Obligations.PollGoesOnOnlyBeforeItsDeadline : Prop :=
  ∀ (s t : State) (p : Phase) (l : Line) (want : Bool) (d : Nat), s.host = [] → s.dl = some d →
    s.phase = some p →
    (p = .faVerify ∧ l = .frame ∧ want = s.cfg.frameAssertLevel) ∨
      ((p = .ackW1 ∨ p = .ackW2) ∧ l = .ack ∧ want = false) →
    step s = .next t →
      ∃ v n, t.trace = s.trace ++ [.readLine l v, .now n] ∧
        (t.phase = some p ↔ v ≠ want ∧ n < d) ∧ (t.phase = some p → t.dl = s.dl)

/-- A poll ends once the clock has passed its deadline, whatever the line does: if the clock moves past the
deadline within the next `ds.length` samples, so does the poll; and, since the clock is fair (R123, built
so: log entry 4), every poll ends (R94). -/
def Obligations.PollEndsWithTheClock : Prop :=
  (∀ (s : State) (p : Phase) (d : Nat) (ds : List Nat) (rest : List Nat), Inv s →
    (p = .faVerify ∨ p = .ackW1 ∨ p = .ackW2) → BlockIn p s → s.dl = some d →
    s.env.elapsed = ds ++ rest → d ≤ lastNow s.trace + ds.sum →
      ∃ k t, k ≤ ds.length + 1 ∧ run k s = .next t ∧ t.phase ≠ some p) ∧
  ∀ (s : State) (p : Phase), Inv s → (p = .faVerify ∨ p = .ackW1 ∨ p = .ackW2) → BlockIn p s →
    ∃ k t, run k s = .next t ∧ t.phase ≠ some p

/-- The acknowledge-timeout law (R100) as a property of every run from the transmit of a transaction: while
no read of the acknowledge line has answered low and the exchange has not failed, no byte is read, and a
transaction that has ended has the result R98 and R99 give. -/
def Obligations.AckTimeoutDegradesGracefully : Prop :=
  ∀ (s t : State) (r : Request) (k : Nat) (evs : List Event), Inv s → BlockIn .xmit s → s.req = some r →
    run k s = .next t → t.trace = s.trace ++ evs → .readLine .ack false ∉ evs →
    (∀ b0 b1 b2 b3, .exchange b0 b1 b2 b3 false ∉ evs) →
      (∀ n b, .readByte n b ∉ evs) ∧ t.count = 0#16 ∧
      (∀ p, t.phase = some p → p.quiescent = true →
        t.ack1TO = true ∧ t.frameOut = false ∧
        (r.mode ≠ 0#2 → t.st = 9#4 ∧ t.err = 5#4 ∧ t.valid = false ∧ t.ack2TO = true) ∧
        (r.mode = 0#2 → t.valid = s.cfg.noackWriteValid ∧
          t.err = if s.cfg.noackWriteValid = true then 0#4 else 5#4))

/-! ### Invariants of every step -/

/-- Every step keeps the invariant of the machine. -/
def Obligations.EveryStepKeepsInvariant : Prop :=
  ∀ s t : State, Inv s → step s = .next t → Inv t

/-- From a state of the invariant the machine always has a next state, unless `FAULT` is set or the host
breaks a duty of R127: no other model fault of R117 is ever met. -/
def Obligations.OnlyTheHostCanCauseAModelFault : Prop :=
  ∀ s : State, Inv s → s.fault = false → HostKeepsDuty s → ∃ t, step s = .next t

/-- The frame symmetry law (R92) is kept by every step but a reset of a busy block. -/
def Obligations.EveryStepKeepsFrameBalance : Prop :=
  ∀ s t : State, FrameBalance s → ¬ResetWhileBusy s → step s = .next t → FrameBalance t

/-- The frame symmetry law over runs (R92): in every run from reset with no reset while busy, the counts of
asserts and deasserts are equal whenever the block is quiescent, with the frame line not driven asserted
(R35), and differ by one from `FA_VERIFY` to `DEASSERT`. -/
def Obligations.FrameSymmetryOverRuns : Prop :=
  ∀ (s : State) (p : Phase), CleanRun s → s.phase = some p →
    (p.quiescent = true →
      nAssert s.cfg.frameAssertLevel s.trace = nDeassert s.cfg.frameAssertLevel s.trace ∧
        s.frameOut = false) ∧
    (p.quiescent = false → p ≠ .faDrive →
      nAssert s.cfg.frameAssertLevel s.trace = nDeassert s.cfg.frameAssertLevel s.trace + 1)

/-- `FRAME_OUT = 1` means that the last `SetLine(FRAME, ·)` drove the asserted level (R35): every step keeps
it. -/
def Obligations.FrameOutTellsTheLastDrive : Prop :=
  ∀ s t : State,
    (s.frameOut = true → lastDrive s.trace = some s.cfg.frameAssertLevel) → step s = .next t →
      (t.frameOut = true → lastDrive t.trace = some t.cfg.frameAssertLevel)

/-- The clock answers of a run never fall (R123, monotonicity): every step keeps that. The clock of the model
is built so (log entry 4). -/
def Obligations.ClockAnswersNeverFall : Prop :=
  ∀ s t : State, (nows s.trace).Pairwise (· ≤ ·) → step s = .next t → (nows t.trace).Pairwise (· ≤ ·)

/-- No step changes the parameters (R31) or takes an event out of the trace (R38), and a step makes at most
two port calls (R143). -/
def Obligations.ParametersStayAndTheTraceGrows : Prop :=
  ∀ s t : State, step s = .next t →
    t.cfg = s.cfg ∧ ∃ evs, t.trace = s.trace ++ evs ∧ evs.length ≤ 2

/-- The block drives no line but `FRAME`, drives that one only in `FA_DRIVE` and `DEASSERT`, to the level of
each, and never reads the interrupt-request line (R43, R35). -/
def Obligations.OnlyTheFrameLineIsDriven : Prop :=
  ∀ (s t : State) (evs : List Event), step s = .next t → t.trace = s.trace ++ evs →
    (∀ l v, .setLine l v ∈ evs →
      l = .frame ∧
        ((s.phase = some .faDrive ∧ v = s.cfg.frameAssertLevel) ∨
          (s.phase = some .deassert ∧ v = !s.cfg.frameAssertLevel))) ∧
    ∀ v, .readLine .irq v ∉ evs

/-- R89: every exchange carries the destination byte and the three bytes of the transaction's request. -/
def Obligations.ExchangeCarriesTheDestination : Prop :=
  ∀ (s t : State) (evs : List Event) (b0 b1 b2 b3 : Byte) (ok : Bool), Inv s → step s = .next t →
    t.trace = s.trace ++ evs → .exchange b0 b1 b2 b3 ok ∈ evs →
      ∃ r, s.req = some r ∧ t.req = some r ∧ b0.toNat = r.addr.toNat + r.base.toNat ∧ b1 = r.opc ∧
        b2 = r.arg1 ∧ b3 = r.arg2

/-- The caller's byte 0 has no effect but on `FRAME[0]` before `XMIT` (R63): acceptances that differ in it
give states that differ in that cell alone, and every later step keeps it so, with equal traces and equal
results. -/
def Obligations.CallerByteZeroIsNeverSeen : Prop :=
  (∀ (s s1 : State) (r : Request) (b b' : Byte) (legal : Bool),
    (s.frame = [] ∨ s.frame.map Prod.fst = [0, 1, 2, 3]) → present r b legal s = .next s1 →
      ∃ t1, present r b' legal s = .next t1 ∧ SameButByte0 s1 t1) ∧
  (∀ s t s1 : State, SameButByte0 s t → step s = .next s1 →
    ∃ t1, step t = .next t1 ∧ SameButByte0 s1 t1)

/-! ### The host's reads -/

/-- R31: the fields of `STATUS`, and that reading it, in any state, changes nothing of the block; the word read
goes to the model's own list of replies (log entry 14). -/
def Obligations.StatusLayoutAndRead : Prop :=
  (∀ s : State,
    s.status.extractLsb' 0 4 = s.st ∧ s.status.extractLsb' 4 4 = s.err ∧
      s.status.getLsbD 8 = s.valid ∧ s.status.getLsbD 9 = s.ack1TO ∧ s.status.getLsbD 10 = s.ack2TO ∧
      s.status.getLsbD 11 = s.precheckWarn ∧ s.status.getLsbD 12 = s.sawTerm ∧
      s.status.getLsbD 13 = s.matched ∧ s.status.getLsbD 14 = s.fault ∧
      s.status.getLsbD 15 = s.frameOut ∧ s.status.extractLsb' 16 16 = s.count) ∧
  (∀ (s : State) (rest : List HostInput), s.host = .readStatus :: rest →
    step s = .next { s with host := rest, replies := s.replies ++ [.status s.status] })

/-- A host read of `RESP[i]` gives the byte received where `i < COUNT`, is the model fault `UNWRITTEN_READ`
from `COUNT` to `CAP - 1`, and is refused from `CAP` on (R41, R117, R127); the byte read goes to the model's own
list of replies (log entry 14). -/
def Obligations.HostReadOfResp : Prop :=
  ∀ (s : State) (i : Nat) (rest : List HostInput), Inv s → s.host = .readResp i :: rest →
    (i < s.count.toNat → ∃ b, s.resp.read i = some b ∧
      step s = .next { s with host := rest, replies := s.replies ++ [.resp i b] }) ∧
    (s.count.toNat ≤ i → i < s.cfg.cap → step s = .fault .unwrittenRead) ∧
    (s.cfg.cap ≤ i → step s = .refused .respIndexOutsideSpace)

/-! ### Endings -/

/-- The clock is fair (R123): whatever the parameters, the environment and the host, a run that keeps calling
`Now()` gets an answer `>= B` after finitely many calls, for every bound `B`. The clock is built so (log entry
4). -/
def Obligations.ClockOfEveryRunIsFair : Prop :=
  ∀ n : Nat, FairClock n

/-- Every transaction ends, whatever the environment answers (R94, R109, R123, R142): from every state of the
invariant with `FAULT = 0`, under a host that does nothing or one that waits, the block comes to a quiescent
state with the same request latched, and a wait is over. The clock is built fair (log entry 4); the host's slots,
and that a wait is the slot `await`, taken off when the block is quiescent, are the model's choice (log entries 5
and 22). -/
def Obligations.EveryTransactionEnds : Prop :=
  ∀ s : State, Inv s → s.fault = false →
    (s.host = [] → ∃ k t, run k s = .next t ∧ t.host = [] ∧ Ready t ∧ t.req = s.req) ∧
    (∀ rest, s.host = .await :: rest → ∃ k t, run k s = .next t ∧ t.host = rest ∧ Ready t ∧ t.req = s.req)
end

