-- ==== Sys2Proof/Laws/Codes.lean ====
section
/-! SUPPORT. The laws of the codes of `ST` and `ERR`, of the clock, and of the fields of a request word. -/

namespace Sys2Proof

/-- `CAP` lies in the range R8 gives it. -/
theorem Params.cap_bounds (c : Params) : 40 ≤ c.cap ∧ c.cap ≤ 65535 := by
  have := c.capExtra.isLt
  unfold Params.cap
  omega

namespace Machine

@[simp] theorem Phase.ofCode_code (p : Phase) : Phase.ofCode p.code = some p := by cases p <;> rfl

theorem Phase.ofCode_eq_some {c : BitVec 4} {p : Phase} : Phase.ofCode c = some p ↔ c = p.code := by
  cases p <;> revert c <;> decide

theorem Phase.code_injective {p q : Phase} (h : p.code = q.code) : p = q := by
  have := congrArg Phase.ofCode h
  simpa using this

@[simp] theorem Phase.code_inj {p q : Phase} : p.code = q.code ↔ p = q :=
  ⟨Phase.code_injective, congrArg _⟩

/-- `ST` above 9 is no state (R23). -/
theorem Phase.ofCode_eq_none {c : BitVec 4} : Phase.ofCode c = none ↔ 10 ≤ c.toNat := by
  revert c; decide

@[simp] theorem FailCode.code_inj {e f : FailCode} : e.code = f.code ↔ e = f := by
  cases e <;> cases f <;> decide

@[simp] theorem errLegal_code (e : FailCode) : errLegal e.code = true := by cases e <;> rfl

theorem State.phase_eq_some {s : State} {p : Phase} :
    s.phase = some p ↔ errLegal s.err = true ∧ s.st = p.code := by
  unfold State.phase
  split <;> simp_all [Phase.ofCode_eq_some]

theorem State.phase_of {s : State} {p : Phase} (he : errLegal s.err = true) (hs : s.st = p.code) :
    s.phase = some p := State.phase_eq_some.mpr ⟨he, hs⟩

@[simp] theorem lastNow_append_now (tr : List Event) (t : Nat) : lastNow (tr ++ [.now t]) = t := by
  simp [lastNow]

@[simp] theorem lastNow_append_ready (tr : List Event) (b : Bool) : lastNow (tr ++ [.ready b]) = lastNow tr := by
  simp [lastNow]

@[simp] theorem lastNow_append_setLine (tr : List Event) (l : Line) (b : Bool) :
    lastNow (tr ++ [.setLine l b]) = lastNow tr := by
  simp [lastNow]

@[simp] theorem lastNow_append_readLine (tr : List Event) (l : Line) (b : Bool) :
    lastNow (tr ++ [.readLine l b]) = lastNow tr := by
  simp [lastNow]

@[simp] theorem lastNow_append_exchange (tr : List Event) (b0 b1 b2 b3 : Byte) (ok : Bool) :
    lastNow (tr ++ [.exchange b0 b1 b2 b3 ok]) = lastNow tr := by
  simp [lastNow]

@[simp] theorem lastNow_append_readByte (tr : List Event) (t : Nat) (r : Option Byte) :
    lastNow (tr ++ [.readByte t r]) = lastNow tr := by
  simp [lastNow]

/-- `reachedBound n b` is the greatest bound up to `b` that falls due by the `n`-th port call: no more than `b`,
due itself unless it is 0, and not below any other. -/
theorem reachedBound_spec (n b : Nat) :
    reachedBound n b ≤ b ∧ (reachedBound n b = 0 ∨ Config.freeReach (reachedBound n b) ≤ n) ∧
      ∀ c, 1 ≤ c → c ≤ b → Config.freeReach c ≤ n → c ≤ reachedBound n b := by
  induction b with
  | zero => exact ⟨Nat.le_refl _, .inl rfl, fun c h1 h2 => by omega⟩
  | succ b ih =>
    rw [reachedBound]
    split
    · next h => exact ⟨Nat.le_refl _, .inr h, fun c _ hc _ => hc⟩
    · next h =>
      refine ⟨by omega, ih.2.1, fun c h1 hc hr => ?_⟩
      by_cases he : c = b + 1
      · exact absurd (he ▸ hr) h
      · exact ih.2.2 c h1 (by omega) hr

/-- `Now()` never answers less than its last answer (R123, monotonicity). -/
theorem State.lastNow_le_nowAnswer (s : State) : lastNow s.trace ≤ s.nowAnswer := Nat.le_add_right _ _

/-- An unscripted clock answers at least every bound that has fallen due (R123, fairness). -/
theorem State.bound_le_nowAnswer {s : State} {b : Nat} (he : s.env.elapsed = []) (hb : b ≤ s.trace.length)
    (hr : Config.freeReach b ≤ s.trace.length) : b ≤ s.nowAnswer := by
  have h : b ≤ reachedBound s.trace.length s.trace.length := by
    by_cases h0 : b = 0
    · omega
    · exact (reachedBound_spec _ _).2.2 b (by omega) hb hr
  simp only [State.nowAnswer, he, List.headD_nil, freeMove]
  omega

/-- The 9-bit sum of R68 is the sum of the two bytes. -/
theorem sum9_toNat (base addr : Byte) :
    (addr.zeroExtend 9 + base.zeroExtend 9).toNat = addr.toNat + base.toNat := by
  have := addr.isLt
  have := base.isLt
  simp [BitVec.toNat_add]
  omega

theorem sumLegal_eq (base addr : Byte) : sumLegal base addr = destinationFits base addr := by
  unfold sumLegal destinationFits
  rw [sum9_toNat]

/-- The condition R68 tests is the well-formedness of the request map (R69). -/
theorem rowCondition_eq_wf (cap : Nat) (i : Instr) : rowCondition cap i = i.wf cap := by
  cases i <;> simp [rowCondition, Instr.wf, sumLegal_eq, countLegal]

/-- On a legal request the destination byte is the exact sum (R61). -/
theorem Request.destination_toNat {r : Request} (h : r.addr.toNat + r.base.toNat ≤ 255) :
    r.destination.toNat = r.addr.toNat + r.base.toNat := by
  unfold Request.destination
  rw [BitVec.extractLsb'_toNat, sum9_toNat]
  simp
  omega

end Machine

end Sys2Proof
end

