-- ==== Sys2Proof/Laws/Encoding.lean ====
section
/-! SUPPORT. The bits of a request word: what the encoder puts in each field, and the mask tests of the
request map as conditions on the fields. -/

namespace Sys2Proof

/-- Which field holds each bit of an encoded word (R64). -/
theorem encodeFields_getLsbD (kind : BitVec 2) (policy : Policy) (mode : BitVec 2)
    (n base addr b0 opc arg1 arg2 : Byte) (i : Nat) :
    (encodeFields kind policy mode n base addr b0 opc arg1 arg2).getLsbD i =
      if i < 8 then arg2.getLsbD i else if i < 16 then arg1.getLsbD (i - 8)
      else if i < 24 then opc.getLsbD (i - 16) else if i < 32 then b0.getLsbD (i - 24)
      else if i < 40 then addr.getLsbD (i - 32) else if i < 48 then base.getLsbD (i - 40)
      else if i < 56 then n.getLsbD (i - 48) else if i < 58 then mode.getLsbD (i - 56)
      else if i < 59 then policy.bit.getLsbD (i - 58) else if i < 62 then false
      else kind.getLsbD (i - 62) := by
  have h : (encodeFields kind policy mode n base addr b0 opc arg1 arg2).getLsbD i =
      BitVec.getLsbD (w := 2 + 3 + 1 + 2 + 8 + 8 + 8 + 8 + 8 + 8 + 8)
        (kind ++ 0#3 ++ policy.bit ++ mode ++ n ++ base ++ addr ++ b0 ++ opc ++ arg1 ++ arg2) i := rfl
  have e : ∀ a b : Nat, 0 < b → (i - a < b) = (i < a + b) := fun a b hb =>
    propext ⟨fun h => by omega, fun h => by omega⟩
  rw [h]
  simp only [BitVec.getLsbD_append, Nat.sub_sub]
  simp only [e, Nat.zero_lt_succ, Nat.reduceAdd, BitVec.getLsbD_zero, Nat.ofNat_pos]

@[simp] theorem Policy.ofBit_bit (p : Policy) : Policy.ofBit p.bit = p := by cases p <;> rfl

theorem extract_encodeFields {kind : BitVec 2} {policy : Policy} {mode : BitVec 2}
    {n base addr b0 opc arg1 arg2 : Byte} {len start : Nat} {x : BitVec len}
    (h : ∀ i, i < len →
      (encodeFields kind policy mode n base addr b0 opc arg1 arg2).getLsbD (start + i) = x.getLsbD i) :
    (encodeFields kind policy mode n base addr b0 opc arg1 arg2).extractLsb' start len = x :=
  BitVec.eq_of_getLsbD_eq fun i hi => by simp [hi, h i hi]

section fields

variable (kind : BitVec 2) (policy : Policy) (mode : BitVec 2) (n base addr b0 opc arg1 arg2 : Byte)

@[simp] theorem fieldKind_encode :
    fieldKind (encodeFields kind policy mode n base addr b0 opc arg1 arg2) = kind :=
  extract_encodeFields fun i hi => by rw [encodeFields_getLsbD]; interval_cases i <;> rfl

@[simp] theorem fieldRsv_encode :
    fieldRsv (encodeFields kind policy mode n base addr b0 opc arg1 arg2) = 0#3 :=
  extract_encodeFields fun i hi => by rw [encodeFields_getLsbD]; interval_cases i <;> rfl

@[simp] theorem fieldPolicy_encode :
    fieldPolicy (encodeFields kind policy mode n base addr b0 opc arg1 arg2) = policy := by
  rw [fieldPolicy, extract_encodeFields (x := policy.bit), Policy.ofBit_bit]
  intro i hi
  rw [encodeFields_getLsbD]
  interval_cases i; rfl

@[simp] theorem fieldMode_encode :
    fieldMode (encodeFields kind policy mode n base addr b0 opc arg1 arg2) = mode :=
  extract_encodeFields fun i hi => by rw [encodeFields_getLsbD]; interval_cases i <;> rfl

@[simp] theorem fieldN_encode :
    fieldN (encodeFields kind policy mode n base addr b0 opc arg1 arg2) = n :=
  extract_encodeFields fun i hi => by rw [encodeFields_getLsbD]; interval_cases i <;> rfl

@[simp] theorem fieldBase_encode :
    fieldBase (encodeFields kind policy mode n base addr b0 opc arg1 arg2) = base :=
  extract_encodeFields fun i hi => by rw [encodeFields_getLsbD]; interval_cases i <;> rfl

@[simp] theorem fieldAddr_encode :
    fieldAddr (encodeFields kind policy mode n base addr b0 opc arg1 arg2) = addr :=
  extract_encodeFields fun i hi => by rw [encodeFields_getLsbD]; interval_cases i <;> rfl

@[simp] theorem fieldB0_encode :
    fieldB0 (encodeFields kind policy mode n base addr b0 opc arg1 arg2) = b0 :=
  extract_encodeFields fun i hi => by rw [encodeFields_getLsbD]; interval_cases i <;> rfl

@[simp] theorem fieldOpc_encode :
    fieldOpc (encodeFields kind policy mode n base addr b0 opc arg1 arg2) = opc :=
  extract_encodeFields fun i hi => by rw [encodeFields_getLsbD]; interval_cases i <;> rfl

@[simp] theorem fieldArg1_encode :
    fieldArg1 (encodeFields kind policy mode n base addr b0 opc arg1 arg2) = arg1 :=
  extract_encodeFields fun i hi => by rw [encodeFields_getLsbD]; interval_cases i <;> rfl

@[simp] theorem fieldArg2_encode :
    fieldArg2 (encodeFields kind policy mode n base addr b0 opc arg1 arg2) = arg2 :=
  extract_encodeFields fun i hi => by rw [encodeFields_getLsbD]; interval_cases i <;> rfl

end fields

/-- Two words agree under a mask where their bits agree at every bit of the mask. -/
theorem and_mask_eq_iff (w mask m : Word64) :
    w &&& mask = m ↔ ∀ i, i < 64 → (w.getLsbD i && mask.getLsbD i) = m.getLsbD i :=
  ⟨fun h i _ => by rw [← BitVec.getLsbD_and, h],
    fun h => BitVec.eq_of_getLsbD_eq fun i hi => by rw [BitVec.getLsbD_and, h i hi]⟩

/-- The mask `0xFB00…`, which leaves `KIND`, `RSV` and `MODE`. -/
theorem mask_kind_mode (w : Word64) (kind mode : BitVec 2) :
    w &&& 0xFB00000000000000#64 = encodeFields kind .default mode 0#8 0#8 0#8 0#8 0#8 0#8 0#8 ↔
      fieldKind w = kind ∧ fieldRsv w = 0#3 ∧ fieldMode w = mode := by
  rw [and_mask_eq_iff]
  constructor
  · intro h
    refine ⟨BitVec.eq_of_getLsbD_eq fun i hi => ?_, BitVec.eq_of_getLsbD_eq fun i hi => ?_,
      BitVec.eq_of_getLsbD_eq fun i hi => ?_⟩
    · have := h (62 + i) (by omega)
      rw [encodeFields_getLsbD] at this
      simp only [fieldKind, BitVec.getLsbD_extractLsb', hi, decide_true, Bool.true_and]
      interval_cases i <;> simpa using this
    · have := h (59 + i) (by omega)
      rw [encodeFields_getLsbD] at this
      simp only [fieldRsv, BitVec.getLsbD_extractLsb', hi, decide_true, Bool.true_and]
      interval_cases i <;> simpa using this
    · have := h (56 + i) (by omega)
      rw [encodeFields_getLsbD] at this
      simp only [fieldMode, BitVec.getLsbD_extractLsb', hi, decide_true, Bool.true_and]
      interval_cases i <;> simpa using this
  · rintro ⟨hk, hr, hm⟩ i hi
    have k : ∀ j, j < 2 → w.getLsbD (62 + j) = kind.getLsbD j := fun j hj => by
      rw [← hk]; simp [fieldKind, hj]
    have r : ∀ j, j < 3 → w.getLsbD (59 + j) = false := fun j hj => by
      have := congrArg (·.getLsbD j) hr
      simpa [fieldRsv, BitVec.getLsbD_extractLsb', hj] using this
    have m : ∀ j, j < 2 → w.getLsbD (56 + j) = mode.getLsbD j := fun j hj => by
      rw [← hm]; simp [fieldMode, hj]
    have k0 := k 0 (by omega); have k1 := k 1 (by omega)
    have r0 := r 0 (by omega); have r1 := r 1 (by omega); have r2 := r 2 (by omega)
    have m0 := m 0 (by omega); have m1 := m 1 (by omega)
    have low : ∀ j, j < 56 → (0xFB00000000000000#64).getLsbD j = false := by decide
    rw [encodeFields_getLsbD]
    by_cases hlow : i < 56
    · rw [low i hlow, Bool.and_false]
      interval_cases i <;> rfl
    · interval_cases i
      · simpa using m0
      · simpa using m1
      · rw [show (0xFB00000000000000#64).getLsbD 58 = false from rfl, Bool.and_false]; rfl
      · simpa using r0
      · simpa using r1
      · simpa using r2
      · simpa using k0
      · simpa using k1

/-- The mask `0xFBFF…`, which leaves `N` too. -/
theorem mask_kind_mode_n (w : Word64) (kind mode : BitVec 2) (n : Byte) :
    w &&& 0xFBFF000000000000#64 = encodeFields kind .default mode n 0#8 0#8 0#8 0#8 0#8 0#8 ↔
      fieldKind w = kind ∧ fieldRsv w = 0#3 ∧ fieldMode w = mode ∧ fieldN w = n := by
  have split : w &&& 0xFBFF000000000000#64 = encodeFields kind .default mode n 0#8 0#8 0#8 0#8 0#8 0#8 ↔
      w &&& 0xFB00000000000000#64 = encodeFields kind .default mode 0#8 0#8 0#8 0#8 0#8 0#8 0#8 ∧
        fieldN w = n := by
    rw [and_mask_eq_iff, and_mask_eq_iff]
    have lo : ∀ j, j < 48 → (0xFBFF000000000000#64).getLsbD j = false ∧
        (0xFB00000000000000#64).getLsbD j = false := by decide
    have mid : ∀ j, j < 8 → (0xFBFF000000000000#64).getLsbD (48 + j) = true ∧
        (0xFB00000000000000#64).getLsbD (48 + j) = false := by decide
    have hi : ∀ j, j < 8 → (0xFBFF000000000000#64).getLsbD (56 + j) =
        (0xFB00000000000000#64).getLsbD (56 + j) := by decide
    constructor
    · intro h
      refine ⟨fun i hi64 => ?_, BitVec.eq_of_getLsbD_eq fun j hj => ?_⟩
      · have := h i hi64
        rw [encodeFields_getLsbD] at this ⊢
        by_cases h1 : i < 48
        · rw [(lo i h1).2, Bool.and_false]
          interval_cases i <;> rfl
        · by_cases h2 : i < 56
          · obtain ⟨j, rfl⟩ : ∃ j, i = 48 + j := ⟨i - 48, by omega⟩
            rw [(mid j (by omega)).2, Bool.and_false]
            have : j < 8 := by omega
            interval_cases j <;> rfl
          · obtain ⟨j, rfl⟩ : ∃ j, i = 56 + j := ⟨i - 56, by omega⟩
            have hj : j < 8 := by omega
            rw [← hi j hj, this]
            interval_cases j <;> rfl
      · have := h (48 + j) (by omega)
        rw [encodeFields_getLsbD, (mid j hj).1, Bool.and_true] at this
        simp only [fieldN, BitVec.getLsbD_extractLsb', hj, decide_true, Bool.true_and, this]
        interval_cases j <;> rfl
    · rintro ⟨h, hn⟩ i hi64
      have := h i hi64
      rw [encodeFields_getLsbD] at this ⊢
      by_cases h1 : i < 48
      · rw [(lo i h1).1, Bool.and_false]
        interval_cases i <;> rfl
      · by_cases h2 : i < 56
        · obtain ⟨j, rfl⟩ : ∃ j, i = 48 + j := ⟨i - 48, by omega⟩
          have hj : j < 8 := by omega
          have hb : w.getLsbD (48 + j) = n.getLsbD j := by
            rw [← hn]; simp [fieldN, hj]
          rw [(mid j hj).1, Bool.and_true, hb]
          interval_cases j <;> rfl
        · obtain ⟨j, rfl⟩ : ∃ j, i = 56 + j := ⟨i - 56, by omega⟩
          have hj : j < 8 := by omega
          rw [hi j hj, this]
          interval_cases j <;> rfl
  rw [split, mask_kind_mode]
  tauto

/-- The rows of the request map as conditions on the fields (R68, R69). -/
theorem decodeRow_eq (w : Word64) :
    decodeRow w =
      if fieldKind w = kindExec ∧ fieldRsv w = 0#3 ∧ fieldMode w = modeW ∧ fieldN w = 0#8 then
        some (.execW (fieldPolicy w) (fieldBase w) (fieldAddr w) (fieldB0 w) (fieldOpc w) (fieldArg1 w)
          (fieldArg2 w))
      else if fieldKind w = kindExec ∧ fieldRsv w = 0#3 ∧ fieldMode w = modeR then
        some (.execR (fieldPolicy w) (fieldN w) (fieldBase w) (fieldAddr w) (fieldB0 w) (fieldOpc w)
          (fieldArg1 w) (fieldArg2 w))
      else if fieldKind w = kindExec ∧ fieldRsv w = 0#3 ∧ fieldMode w = modeT then
        some (.execT (fieldPolicy w) (fieldN w) (fieldBase w) (fieldAddr w) (fieldB0 w) (fieldOpc w)
          (fieldArg1 w) (fieldArg2 w))
      else if fieldKind w = kindValidate ∧ fieldRsv w = 0#3 ∧ fieldMode w = modeR ∧ fieldN w = 1#8 then
        some (.validate (fieldPolicy w) (fieldBase w) (fieldAddr w) (fieldB0 w) (fieldOpc w) (fieldArg1 w)
          (fieldArg2 w))
      else none := by
  have hw := mask_kind_mode_n w kindExec modeW 0#8
  have hr := mask_kind_mode w kindExec modeR
  have ht := mask_kind_mode w kindExec modeT
  have hv := mask_kind_mode_n w kindValidate modeR 1#8
  rw [show encodeFields kindExec .default modeW 0#8 0#8 0#8 0#8 0#8 0#8 0#8 = 0x0000000000000000#64 from rfl] at hw
  rw [show encodeFields kindExec .default modeR 0#8 0#8 0#8 0#8 0#8 0#8 0#8 = 0x0100000000000000#64 from rfl] at hr
  rw [show encodeFields kindExec .default modeT 0#8 0#8 0#8 0#8 0#8 0#8 0#8 = 0x0200000000000000#64 from rfl] at ht
  rw [show encodeFields kindValidate .default modeR 1#8 0#8 0#8 0#8 0#8 0#8 0#8 = 0x4101000000000000#64 from rfl] at hv
  simp only [decodeRow, hw, hr, ht, hv]

end Sys2Proof
end

