-- ==== Sys2Proof/Laws/Memory.lean ====
section
/-! SUPPORT. The laws of the byte spaces (R11, R41): read after write, and the canonical form, which every
operation that writes a space keeps. -/

namespace Sys2Proof.Machine

@[simp] theorem Memory.read_nil (a : Nat) : Memory.read [] a = none := rfl

theorem Memory.read_cons (b : Nat) (w : Byte) (m : Memory) (a : Nat) :
    Memory.read ((b, w) :: m) a = if a = b then some w else Memory.read m a := rfl

/-- A read after a write to the same cell gives the byte written, and every other cell reads as before. -/
theorem Memory.read_write (m : Memory) (a b : Nat) (v : Byte) :
    (Memory.write m a v).read b = if b = a then some v else Memory.read m b := by
  induction m with
  | nil => rfl
  | cons c m ih =>
    obtain ⟨d, w⟩ := c
    simp only [Memory.write]
    split
    · rfl
    · split
      · next h => subst h; simp only [Memory.read_cons]; split <;> rfl
      · next h =>
        simp only [Memory.read_cons, ih]
        by_cases hb : b = d
        · simp [hb, Ne.symm h]
        · simp [hb]

@[simp] theorem Memory.read_write_self (m : Memory) (a : Nat) (v : Byte) :
    (Memory.write m a v).read a = some v := by
  simp [Memory.read_write]

theorem Memory.read_write_ne (m : Memory) {a b : Nat} (v : Byte) (h : b ≠ a) :
    (Memory.write m a v).read b = Memory.read m b := by
  simp [Memory.read_write, h]

/-- The addresses a write lists: those there were, and its own. -/
theorem Memory.mem_write {m : Memory} {a : Nat} {v : Byte} {c : Host.Cell} (h : c ∈ Memory.write m a v) :
    c.1 = a ∨ c ∈ m := by
  induction m with
  | nil => simp [Memory.write] at h; simp [h]
  | cons d m ih =>
    obtain ⟨b, w⟩ := d
    simp only [Memory.write] at h
    split at h
    · rcases List.mem_cons.mp h with h | h
      · exact .inl (by simp [h])
      · exact .inr h
    · split at h
      · rcases List.mem_cons.mp h with h | h
        · exact .inl (by simp [h])
        · exact .inr (List.mem_cons_of_mem _ h)
      · rcases List.mem_cons.mp h with h | h
        · exact .inr (by simp [h])
        · exact (ih h).imp_right (List.mem_cons_of_mem _)

theorem Memory.wf_cons (a : Nat) (v : Byte) (m : Memory) :
    Memory.wf ((a, v) :: m) = true ↔ (∀ c ∈ m, a < c.1) ∧ Memory.wf m = true := by
  simp [Memory.wf, List.pairwise_cons]

/-- A write keeps the canonical form. -/
theorem Memory.write_wf {m : Memory} (h : m.wf = true) (a : Nat) (v : Byte) : (m.write a v).wf = true := by
  induction m with
  | nil => simp [Memory.write, Memory.wf]
  | cons c m ih =>
    obtain ⟨b, w⟩ := c
    have hm := (Memory.wf_cons b w m).mp h
    simp only [Memory.write]
    split
    · next hab =>
      refine (Memory.wf_cons _ _ _).mpr ⟨fun c hc => ?_, h⟩
      rcases List.mem_cons.mp hc with rfl | hc
      · exact hab
      · exact Nat.lt_trans hab (hm.1 c hc)
    · split
      · next hab => subst hab; exact (Memory.wf_cons _ _ _).mpr hm
      · refine (Memory.wf_cons _ _ _).mpr ⟨fun c hc => ?_, ih hm.2⟩
        rcases Memory.mem_write hc with hc | hc
        · omega
        · exact hm.1 c hc

/-- A write above every listed address adds its cell at the end. -/
theorem Memory.write_above {m : Memory} {a : Nat} (v : Byte) (h : ∀ c ∈ m, c.1 < a) :
    m.write a v = m ++ [(a, v)] := by
  induction m with
  | nil => rfl
  | cons c m ih =>
    obtain ⟨b, w⟩ := c
    have hb : b < a := h _ (List.mem_cons_self ..)
    simp only [Memory.write, if_neg (show ¬a < b by omega), if_neg (show ¬a = b by omega), List.cons_append]
    rw [ih fun c hc => h c (List.mem_cons_of_mem _ hc)]

theorem reset_frame_wf : State.reset.frame.wf = true := rfl
theorem reset_resp_wf : State.reset.resp.wf = true := rfl

theorem State.writeFrame_wf {s : State} (h : s.frame.wf = true) (i : Fin 4) (v : Byte) :
    (s.writeFrame i v).frame.wf = true :=
  Memory.write_wf h _ _

/-- What `append` can do (R101): the byte goes to the first free cell, and `COUNT` grows by one. -/
theorem State.append_eq_some {s t : State} {b : Byte} (h : s.append b = some t) :
    s.count.toNat < s.cfg.cap ∧ t.count.toNat = s.count.toNat + 1 ∧
      t = s.push b := by
  unfold State.append at h
  split at h
  · next hc =>
    cases h
    refine ⟨hc, ?_, rfl⟩
    have : s.cfg.cap ≤ 65535 := by have := s.cfg.capExtra.isLt; unfold Params.cap; omega
    simp [State.push, BitVec.toNat_add]
    omega
  · cases h

theorem State.append_of_lt {s : State} (b : Byte) (h : s.count.toNat < s.cfg.cap) :
    s.append b = some (s.push b) := by
  simp [State.append, h]

theorem State.append_wf {s t : State} {b : Byte} (h : s.append b = some t) (hw : s.resp.wf = true) :
    t.resp.wf = true := by
  obtain ⟨-, -, rfl⟩ := State.append_eq_some h
  exact Memory.write_wf hw _ _

end Sys2Proof.Machine
end

