-- ==== Sys2Proof/Laws/State.lean ====
section
/-! SUPPORT. One lemma per field of the state for each named update, so that no later proof unfolds one. -/

namespace Sys2Proof.Machine

variable (s : State)


/-! ### goto -/

@[simp] theorem State.goto_st (p : Phase) : (s.goto p).st = p.code := rfl
@[simp] theorem State.goto_req (p : Phase) : (s.goto p).req = s.req := rfl
@[simp] theorem State.goto_frame (p : Phase) : (s.goto p).frame = s.frame := rfl
@[simp] theorem State.goto_resp (p : Phase) : (s.goto p).resp = s.resp := rfl
@[simp] theorem State.goto_count (p : Phase) : (s.goto p).count = s.count := rfl
@[simp] theorem State.goto_valid (p : Phase) : (s.goto p).valid = s.valid := rfl
@[simp] theorem State.goto_err (p : Phase) : (s.goto p).err = s.err := rfl
@[simp] theorem State.goto_ack1TO (p : Phase) : (s.goto p).ack1TO = s.ack1TO := rfl
@[simp] theorem State.goto_ack2TO (p : Phase) : (s.goto p).ack2TO = s.ack2TO := rfl
@[simp] theorem State.goto_precheckWarn (p : Phase) : (s.goto p).precheckWarn = s.precheckWarn := rfl
@[simp] theorem State.goto_sawTerm (p : Phase) : (s.goto p).sawTerm = s.sawTerm := rfl
@[simp] theorem State.goto_matched (p : Phase) : (s.goto p).matched = s.matched := rfl
@[simp] theorem State.goto_fault (p : Phase) : (s.goto p).fault = s.fault := rfl
@[simp] theorem State.goto_frameOut (p : Phase) : (s.goto p).frameOut = s.frameOut := rfl
@[simp] theorem State.goto_dl (p : Phase) : (s.goto p).dl = s.dl := rfl
@[simp] theorem State.goto_trace (p : Phase) : (s.goto p).trace = s.trace := rfl
@[simp] theorem State.goto_cfg (p : Phase) : (s.goto p).cfg = s.cfg := rfl
@[simp] theorem State.goto_env (p : Phase) : (s.goto p).env = s.env := rfl
@[simp] theorem State.goto_host (p : Phase) : (s.goto p).host = s.host := rfl
@[simp] theorem State.goto_replies (p : Phase) : (s.goto p).replies = s.replies := rfl

/-! ### failWith -/

@[simp] theorem State.failWith_st (e : FailCode) : (s.failWith e).st = Phase.failed.code := rfl
@[simp] theorem State.failWith_req (e : FailCode) : (s.failWith e).req = s.req := rfl
@[simp] theorem State.failWith_frame (e : FailCode) : (s.failWith e).frame = s.frame := rfl
@[simp] theorem State.failWith_resp (e : FailCode) : (s.failWith e).resp = s.resp := rfl
@[simp] theorem State.failWith_count (e : FailCode) : (s.failWith e).count = s.count := rfl
@[simp] theorem State.failWith_valid (e : FailCode) : (s.failWith e).valid = s.valid := rfl
@[simp] theorem State.failWith_err (e : FailCode) : (s.failWith e).err = e.code := rfl
@[simp] theorem State.failWith_ack1TO (e : FailCode) : (s.failWith e).ack1TO = s.ack1TO := rfl
@[simp] theorem State.failWith_ack2TO (e : FailCode) : (s.failWith e).ack2TO = s.ack2TO := rfl
@[simp] theorem State.failWith_precheckWarn (e : FailCode) : (s.failWith e).precheckWarn = s.precheckWarn := rfl
@[simp] theorem State.failWith_sawTerm (e : FailCode) : (s.failWith e).sawTerm = s.sawTerm := rfl
@[simp] theorem State.failWith_matched (e : FailCode) : (s.failWith e).matched = s.matched := rfl
@[simp] theorem State.failWith_fault (e : FailCode) : (s.failWith e).fault = s.fault := rfl
@[simp] theorem State.failWith_frameOut (e : FailCode) : (s.failWith e).frameOut = s.frameOut := rfl
@[simp] theorem State.failWith_dl (e : FailCode) : (s.failWith e).dl = s.dl := rfl
@[simp] theorem State.failWith_trace (e : FailCode) : (s.failWith e).trace = s.trace := rfl
@[simp] theorem State.failWith_cfg (e : FailCode) : (s.failWith e).cfg = s.cfg := rfl
@[simp] theorem State.failWith_env (e : FailCode) : (s.failWith e).env = s.env := rfl
@[simp] theorem State.failWith_host (e : FailCode) : (s.failWith e).host = s.host := rfl
@[simp] theorem State.failWith_replies (e : FailCode) : (s.failWith e).replies = s.replies := rfl

/-! ### raise -/

@[simp] theorem State.raise_st (e : FailCode) : (s.raise e).st = Phase.deassert.code := rfl
@[simp] theorem State.raise_req (e : FailCode) : (s.raise e).req = s.req := rfl
@[simp] theorem State.raise_frame (e : FailCode) : (s.raise e).frame = s.frame := rfl
@[simp] theorem State.raise_resp (e : FailCode) : (s.raise e).resp = s.resp := rfl
@[simp] theorem State.raise_count (e : FailCode) : (s.raise e).count = s.count := rfl
@[simp] theorem State.raise_valid (e : FailCode) : (s.raise e).valid = s.valid := rfl
@[simp] theorem State.raise_err (e : FailCode) : (s.raise e).err = e.code := rfl
@[simp] theorem State.raise_ack1TO (e : FailCode) : (s.raise e).ack1TO = s.ack1TO := rfl
@[simp] theorem State.raise_ack2TO (e : FailCode) : (s.raise e).ack2TO = s.ack2TO := rfl
@[simp] theorem State.raise_precheckWarn (e : FailCode) : (s.raise e).precheckWarn = s.precheckWarn := rfl
@[simp] theorem State.raise_sawTerm (e : FailCode) : (s.raise e).sawTerm = s.sawTerm := rfl
@[simp] theorem State.raise_matched (e : FailCode) : (s.raise e).matched = s.matched := rfl
@[simp] theorem State.raise_fault (e : FailCode) : (s.raise e).fault = s.fault := rfl
@[simp] theorem State.raise_frameOut (e : FailCode) : (s.raise e).frameOut = s.frameOut := rfl
@[simp] theorem State.raise_dl (e : FailCode) : (s.raise e).dl = s.dl := rfl
@[simp] theorem State.raise_trace (e : FailCode) : (s.raise e).trace = s.trace := rfl
@[simp] theorem State.raise_cfg (e : FailCode) : (s.raise e).cfg = s.cfg := rfl
@[simp] theorem State.raise_env (e : FailCode) : (s.raise e).env = s.env := rfl
@[simp] theorem State.raise_host (e : FailCode) : (s.raise e).host = s.host := rfl
@[simp] theorem State.raise_replies (e : FailCode) : (s.raise e).replies = s.replies := rfl

/-! ### writeFrame -/

@[simp] theorem State.writeFrame_st (i : Fin 4) (v : Byte) : (s.writeFrame i v).st = s.st := rfl
@[simp] theorem State.writeFrame_req (i : Fin 4) (v : Byte) : (s.writeFrame i v).req = s.req := rfl
@[simp] theorem State.writeFrame_frame (i : Fin 4) (v : Byte) : (s.writeFrame i v).frame = s.frame.write i.val v := rfl
@[simp] theorem State.writeFrame_resp (i : Fin 4) (v : Byte) : (s.writeFrame i v).resp = s.resp := rfl
@[simp] theorem State.writeFrame_count (i : Fin 4) (v : Byte) : (s.writeFrame i v).count = s.count := rfl
@[simp] theorem State.writeFrame_valid (i : Fin 4) (v : Byte) : (s.writeFrame i v).valid = s.valid := rfl
@[simp] theorem State.writeFrame_err (i : Fin 4) (v : Byte) : (s.writeFrame i v).err = s.err := rfl
@[simp] theorem State.writeFrame_ack1TO (i : Fin 4) (v : Byte) : (s.writeFrame i v).ack1TO = s.ack1TO := rfl
@[simp] theorem State.writeFrame_ack2TO (i : Fin 4) (v : Byte) : (s.writeFrame i v).ack2TO = s.ack2TO := rfl
@[simp] theorem State.writeFrame_precheckWarn (i : Fin 4) (v : Byte) : (s.writeFrame i v).precheckWarn = s.precheckWarn := rfl
@[simp] theorem State.writeFrame_sawTerm (i : Fin 4) (v : Byte) : (s.writeFrame i v).sawTerm = s.sawTerm := rfl
@[simp] theorem State.writeFrame_matched (i : Fin 4) (v : Byte) : (s.writeFrame i v).matched = s.matched := rfl
@[simp] theorem State.writeFrame_fault (i : Fin 4) (v : Byte) : (s.writeFrame i v).fault = s.fault := rfl
@[simp] theorem State.writeFrame_frameOut (i : Fin 4) (v : Byte) : (s.writeFrame i v).frameOut = s.frameOut := rfl
@[simp] theorem State.writeFrame_dl (i : Fin 4) (v : Byte) : (s.writeFrame i v).dl = s.dl := rfl
@[simp] theorem State.writeFrame_trace (i : Fin 4) (v : Byte) : (s.writeFrame i v).trace = s.trace := rfl
@[simp] theorem State.writeFrame_cfg (i : Fin 4) (v : Byte) : (s.writeFrame i v).cfg = s.cfg := rfl
@[simp] theorem State.writeFrame_env (i : Fin 4) (v : Byte) : (s.writeFrame i v).env = s.env := rfl
@[simp] theorem State.writeFrame_host (i : Fin 4) (v : Byte) : (s.writeFrame i v).host = s.host := rfl
@[simp] theorem State.writeFrame_replies (i : Fin 4) (v : Byte) : (s.writeFrame i v).replies = s.replies := rfl

/-! ### clearResult -/

@[simp] theorem State.clearResult_st : (s.clearResult).st = s.st := rfl
@[simp] theorem State.clearResult_req : (s.clearResult).req = s.req := rfl
@[simp] theorem State.clearResult_frame : (s.clearResult).frame = s.frame := rfl
@[simp] theorem State.clearResult_resp : (s.clearResult).resp = [] := rfl
@[simp] theorem State.clearResult_count : (s.clearResult).count = 0#16 := rfl
@[simp] theorem State.clearResult_valid : (s.clearResult).valid = false := rfl
@[simp] theorem State.clearResult_err : (s.clearResult).err = FailCode.none.code := rfl
@[simp] theorem State.clearResult_ack1TO : (s.clearResult).ack1TO = false := rfl
@[simp] theorem State.clearResult_ack2TO : (s.clearResult).ack2TO = false := rfl
@[simp] theorem State.clearResult_precheckWarn : (s.clearResult).precheckWarn = false := rfl
@[simp] theorem State.clearResult_sawTerm : (s.clearResult).sawTerm = false := rfl
@[simp] theorem State.clearResult_matched : (s.clearResult).matched = false := rfl
@[simp] theorem State.clearResult_fault : (s.clearResult).fault = s.fault := rfl
@[simp] theorem State.clearResult_frameOut : (s.clearResult).frameOut = s.frameOut := rfl
@[simp] theorem State.clearResult_dl : (s.clearResult).dl = none := rfl
@[simp] theorem State.clearResult_trace : (s.clearResult).trace = s.trace := rfl
@[simp] theorem State.clearResult_cfg : (s.clearResult).cfg = s.cfg := rfl
@[simp] theorem State.clearResult_env : (s.clearResult).env = s.env := rfl
@[simp] theorem State.clearResult_host : (s.clearResult).host = s.host := rfl
@[simp] theorem State.clearResult_replies : (s.clearResult).replies = s.replies := rfl

/-! ### callReady -/

@[simp] theorem State.callReady_st : (s.callReady).st = s.st := rfl
@[simp] theorem State.callReady_req : (s.callReady).req = s.req := rfl
@[simp] theorem State.callReady_frame : (s.callReady).frame = s.frame := rfl
@[simp] theorem State.callReady_resp : (s.callReady).resp = s.resp := rfl
@[simp] theorem State.callReady_count : (s.callReady).count = s.count := rfl
@[simp] theorem State.callReady_valid : (s.callReady).valid = s.valid := rfl
@[simp] theorem State.callReady_err : (s.callReady).err = s.err := rfl
@[simp] theorem State.callReady_ack1TO : (s.callReady).ack1TO = s.ack1TO := rfl
@[simp] theorem State.callReady_ack2TO : (s.callReady).ack2TO = s.ack2TO := rfl
@[simp] theorem State.callReady_precheckWarn : (s.callReady).precheckWarn = s.precheckWarn := rfl
@[simp] theorem State.callReady_sawTerm : (s.callReady).sawTerm = s.sawTerm := rfl
@[simp] theorem State.callReady_matched : (s.callReady).matched = s.matched := rfl
@[simp] theorem State.callReady_fault : (s.callReady).fault = s.fault := rfl
@[simp] theorem State.callReady_frameOut : (s.callReady).frameOut = s.frameOut := rfl
@[simp] theorem State.callReady_dl : (s.callReady).dl = s.dl := rfl
@[simp] theorem State.callReady_trace : (s.callReady).trace = s.trace ++ [.ready s.readyAnswer] := rfl
@[simp] theorem State.callReady_cfg : (s.callReady).cfg = s.cfg := rfl
@[simp] theorem State.callReady_env : (s.callReady).env = { s.env with ready := s.env.ready.tail } := rfl
@[simp] theorem State.callReady_host : (s.callReady).host = s.host := rfl
@[simp] theorem State.callReady_replies : (s.callReady).replies = s.replies := rfl

/-! ### callSetLine -/

@[simp] theorem State.callSetLine_st (l : Line) (v : Bool) : (s.callSetLine l v).st = s.st := rfl
@[simp] theorem State.callSetLine_req (l : Line) (v : Bool) : (s.callSetLine l v).req = s.req := rfl
@[simp] theorem State.callSetLine_frame (l : Line) (v : Bool) : (s.callSetLine l v).frame = s.frame := rfl
@[simp] theorem State.callSetLine_resp (l : Line) (v : Bool) : (s.callSetLine l v).resp = s.resp := rfl
@[simp] theorem State.callSetLine_count (l : Line) (v : Bool) : (s.callSetLine l v).count = s.count := rfl
@[simp] theorem State.callSetLine_valid (l : Line) (v : Bool) : (s.callSetLine l v).valid = s.valid := rfl
@[simp] theorem State.callSetLine_err (l : Line) (v : Bool) : (s.callSetLine l v).err = s.err := rfl
@[simp] theorem State.callSetLine_ack1TO (l : Line) (v : Bool) : (s.callSetLine l v).ack1TO = s.ack1TO := rfl
@[simp] theorem State.callSetLine_ack2TO (l : Line) (v : Bool) : (s.callSetLine l v).ack2TO = s.ack2TO := rfl
@[simp] theorem State.callSetLine_precheckWarn (l : Line) (v : Bool) : (s.callSetLine l v).precheckWarn = s.precheckWarn := rfl
@[simp] theorem State.callSetLine_sawTerm (l : Line) (v : Bool) : (s.callSetLine l v).sawTerm = s.sawTerm := rfl
@[simp] theorem State.callSetLine_matched (l : Line) (v : Bool) : (s.callSetLine l v).matched = s.matched := rfl
@[simp] theorem State.callSetLine_fault (l : Line) (v : Bool) : (s.callSetLine l v).fault = s.fault := rfl
@[simp] theorem State.callSetLine_frameOut (l : Line) (v : Bool) : (s.callSetLine l v).frameOut = s.frameOut := rfl
@[simp] theorem State.callSetLine_dl (l : Line) (v : Bool) : (s.callSetLine l v).dl = s.dl := rfl
@[simp] theorem State.callSetLine_trace (l : Line) (v : Bool) : (s.callSetLine l v).trace = s.trace ++ [.setLine l v] := rfl
@[simp] theorem State.callSetLine_cfg (l : Line) (v : Bool) : (s.callSetLine l v).cfg = s.cfg := rfl
@[simp] theorem State.callSetLine_env (l : Line) (v : Bool) : (s.callSetLine l v).env = s.env := rfl
@[simp] theorem State.callSetLine_host (l : Line) (v : Bool) : (s.callSetLine l v).host = s.host := rfl
@[simp] theorem State.callSetLine_replies (l : Line) (v : Bool) : (s.callSetLine l v).replies = s.replies := rfl

/-! ### callReadLine -/

@[simp] theorem State.callReadLine_st (l : Line) : (s.callReadLine l).st = s.st := rfl
@[simp] theorem State.callReadLine_req (l : Line) : (s.callReadLine l).req = s.req := rfl
@[simp] theorem State.callReadLine_frame (l : Line) : (s.callReadLine l).frame = s.frame := rfl
@[simp] theorem State.callReadLine_resp (l : Line) : (s.callReadLine l).resp = s.resp := rfl
@[simp] theorem State.callReadLine_count (l : Line) : (s.callReadLine l).count = s.count := rfl
@[simp] theorem State.callReadLine_valid (l : Line) : (s.callReadLine l).valid = s.valid := rfl
@[simp] theorem State.callReadLine_err (l : Line) : (s.callReadLine l).err = s.err := rfl
@[simp] theorem State.callReadLine_ack1TO (l : Line) : (s.callReadLine l).ack1TO = s.ack1TO := rfl
@[simp] theorem State.callReadLine_ack2TO (l : Line) : (s.callReadLine l).ack2TO = s.ack2TO := rfl
@[simp] theorem State.callReadLine_precheckWarn (l : Line) : (s.callReadLine l).precheckWarn = s.precheckWarn := rfl
@[simp] theorem State.callReadLine_sawTerm (l : Line) : (s.callReadLine l).sawTerm = s.sawTerm := rfl
@[simp] theorem State.callReadLine_matched (l : Line) : (s.callReadLine l).matched = s.matched := rfl
@[simp] theorem State.callReadLine_fault (l : Line) : (s.callReadLine l).fault = s.fault := rfl
@[simp] theorem State.callReadLine_frameOut (l : Line) : (s.callReadLine l).frameOut = s.frameOut := rfl
@[simp] theorem State.callReadLine_dl (l : Line) : (s.callReadLine l).dl = s.dl := rfl
@[simp] theorem State.callReadLine_trace (l : Line) : (s.callReadLine l).trace = s.trace ++ [.readLine l (s.lineAnswer l)] := rfl
@[simp] theorem State.callReadLine_cfg (l : Line) : (s.callReadLine l).cfg = s.cfg := rfl
@[simp] theorem State.callReadLine_env (l : Line) : (s.callReadLine l).env = s.env.dropLine l := rfl
@[simp] theorem State.callReadLine_host (l : Line) : (s.callReadLine l).host = s.host := rfl
@[simp] theorem State.callReadLine_replies (l : Line) : (s.callReadLine l).replies = s.replies := rfl

/-! ### callExchange -/

@[simp] theorem State.callExchange_st (b0 b1 b2 b3 : Byte) : (s.callExchange b0 b1 b2 b3).st = s.st := rfl
@[simp] theorem State.callExchange_req (b0 b1 b2 b3 : Byte) : (s.callExchange b0 b1 b2 b3).req = s.req := rfl
@[simp] theorem State.callExchange_frame (b0 b1 b2 b3 : Byte) : (s.callExchange b0 b1 b2 b3).frame = s.frame := rfl
@[simp] theorem State.callExchange_resp (b0 b1 b2 b3 : Byte) : (s.callExchange b0 b1 b2 b3).resp = s.resp := rfl
@[simp] theorem State.callExchange_count (b0 b1 b2 b3 : Byte) : (s.callExchange b0 b1 b2 b3).count = s.count := rfl
@[simp] theorem State.callExchange_valid (b0 b1 b2 b3 : Byte) : (s.callExchange b0 b1 b2 b3).valid = s.valid := rfl
@[simp] theorem State.callExchange_err (b0 b1 b2 b3 : Byte) : (s.callExchange b0 b1 b2 b3).err = s.err := rfl
@[simp] theorem State.callExchange_ack1TO (b0 b1 b2 b3 : Byte) : (s.callExchange b0 b1 b2 b3).ack1TO = s.ack1TO := rfl
@[simp] theorem State.callExchange_ack2TO (b0 b1 b2 b3 : Byte) : (s.callExchange b0 b1 b2 b3).ack2TO = s.ack2TO := rfl
@[simp] theorem State.callExchange_precheckWarn (b0 b1 b2 b3 : Byte) : (s.callExchange b0 b1 b2 b3).precheckWarn = s.precheckWarn := rfl
@[simp] theorem State.callExchange_sawTerm (b0 b1 b2 b3 : Byte) : (s.callExchange b0 b1 b2 b3).sawTerm = s.sawTerm := rfl
@[simp] theorem State.callExchange_matched (b0 b1 b2 b3 : Byte) : (s.callExchange b0 b1 b2 b3).matched = s.matched := rfl
@[simp] theorem State.callExchange_fault (b0 b1 b2 b3 : Byte) : (s.callExchange b0 b1 b2 b3).fault = s.fault := rfl
@[simp] theorem State.callExchange_frameOut (b0 b1 b2 b3 : Byte) : (s.callExchange b0 b1 b2 b3).frameOut = s.frameOut := rfl
@[simp] theorem State.callExchange_dl (b0 b1 b2 b3 : Byte) : (s.callExchange b0 b1 b2 b3).dl = s.dl := rfl
@[simp] theorem State.callExchange_trace (b0 b1 b2 b3 : Byte) : (s.callExchange b0 b1 b2 b3).trace = s.trace ++ [.exchange b0 b1 b2 b3 s.exchangeAnswer] := rfl
@[simp] theorem State.callExchange_cfg (b0 b1 b2 b3 : Byte) : (s.callExchange b0 b1 b2 b3).cfg = s.cfg := rfl
@[simp] theorem State.callExchange_env (b0 b1 b2 b3 : Byte) : (s.callExchange b0 b1 b2 b3).env = { s.env with exchange := s.env.exchange.tail } := rfl
@[simp] theorem State.callExchange_host (b0 b1 b2 b3 : Byte) : (s.callExchange b0 b1 b2 b3).host = s.host := rfl
@[simp] theorem State.callExchange_replies (b0 b1 b2 b3 : Byte) : (s.callExchange b0 b1 b2 b3).replies = s.replies := rfl

/-! ### callReadByte -/

@[simp] theorem State.callReadByte_st (t : Nat) : (s.callReadByte t).st = s.st := rfl
@[simp] theorem State.callReadByte_req (t : Nat) : (s.callReadByte t).req = s.req := rfl
@[simp] theorem State.callReadByte_frame (t : Nat) : (s.callReadByte t).frame = s.frame := rfl
@[simp] theorem State.callReadByte_resp (t : Nat) : (s.callReadByte t).resp = s.resp := rfl
@[simp] theorem State.callReadByte_count (t : Nat) : (s.callReadByte t).count = s.count := rfl
@[simp] theorem State.callReadByte_valid (t : Nat) : (s.callReadByte t).valid = s.valid := rfl
@[simp] theorem State.callReadByte_err (t : Nat) : (s.callReadByte t).err = s.err := rfl
@[simp] theorem State.callReadByte_ack1TO (t : Nat) : (s.callReadByte t).ack1TO = s.ack1TO := rfl
@[simp] theorem State.callReadByte_ack2TO (t : Nat) : (s.callReadByte t).ack2TO = s.ack2TO := rfl
@[simp] theorem State.callReadByte_precheckWarn (t : Nat) : (s.callReadByte t).precheckWarn = s.precheckWarn := rfl
@[simp] theorem State.callReadByte_sawTerm (t : Nat) : (s.callReadByte t).sawTerm = s.sawTerm := rfl
@[simp] theorem State.callReadByte_matched (t : Nat) : (s.callReadByte t).matched = s.matched := rfl
@[simp] theorem State.callReadByte_fault (t : Nat) : (s.callReadByte t).fault = s.fault := rfl
@[simp] theorem State.callReadByte_frameOut (t : Nat) : (s.callReadByte t).frameOut = s.frameOut := rfl
@[simp] theorem State.callReadByte_dl (t : Nat) : (s.callReadByte t).dl = s.dl := rfl
@[simp] theorem State.callReadByte_trace (t : Nat) : (s.callReadByte t).trace = s.trace ++ [.readByte t s.byteAnswer] := rfl
@[simp] theorem State.callReadByte_cfg (t : Nat) : (s.callReadByte t).cfg = s.cfg := rfl
@[simp] theorem State.callReadByte_env (t : Nat) : (s.callReadByte t).env = { s.env with byte := s.env.byte.tail } := rfl
@[simp] theorem State.callReadByte_host (t : Nat) : (s.callReadByte t).host = s.host := rfl
@[simp] theorem State.callReadByte_replies (t : Nat) : (s.callReadByte t).replies = s.replies := rfl

/-! ### callNow -/

@[simp] theorem State.callNow_st : (s.callNow).st = s.st := rfl
@[simp] theorem State.callNow_req : (s.callNow).req = s.req := rfl
@[simp] theorem State.callNow_frame : (s.callNow).frame = s.frame := rfl
@[simp] theorem State.callNow_resp : (s.callNow).resp = s.resp := rfl
@[simp] theorem State.callNow_count : (s.callNow).count = s.count := rfl
@[simp] theorem State.callNow_valid : (s.callNow).valid = s.valid := rfl
@[simp] theorem State.callNow_err : (s.callNow).err = s.err := rfl
@[simp] theorem State.callNow_ack1TO : (s.callNow).ack1TO = s.ack1TO := rfl
@[simp] theorem State.callNow_ack2TO : (s.callNow).ack2TO = s.ack2TO := rfl
@[simp] theorem State.callNow_precheckWarn : (s.callNow).precheckWarn = s.precheckWarn := rfl
@[simp] theorem State.callNow_sawTerm : (s.callNow).sawTerm = s.sawTerm := rfl
@[simp] theorem State.callNow_matched : (s.callNow).matched = s.matched := rfl
@[simp] theorem State.callNow_fault : (s.callNow).fault = s.fault := rfl
@[simp] theorem State.callNow_frameOut : (s.callNow).frameOut = s.frameOut := rfl
@[simp] theorem State.callNow_dl : (s.callNow).dl = s.dl := rfl
@[simp] theorem State.callNow_trace : (s.callNow).trace = s.trace ++ [.now s.nowAnswer] := rfl
@[simp] theorem State.callNow_cfg : (s.callNow).cfg = s.cfg := rfl
@[simp] theorem State.callNow_env : (s.callNow).env = { s.env with elapsed := s.env.elapsed.tail } := rfl
@[simp] theorem State.callNow_host : (s.callNow).host = s.host := rfl
@[simp] theorem State.callNow_replies : (s.callNow).replies = s.replies := rfl

/-! ### push -/

@[simp] theorem State.push_st (b : Byte) : (s.push b).st = s.st := rfl
@[simp] theorem State.push_req (b : Byte) : (s.push b).req = s.req := rfl
@[simp] theorem State.push_frame (b : Byte) : (s.push b).frame = s.frame := rfl
@[simp] theorem State.push_resp (b : Byte) : (s.push b).resp = s.resp.write s.count.toNat b := rfl
@[simp] theorem State.push_count (b : Byte) : (s.push b).count = s.count + 1#16 := rfl
@[simp] theorem State.push_valid (b : Byte) : (s.push b).valid = s.valid := rfl
@[simp] theorem State.push_err (b : Byte) : (s.push b).err = s.err := rfl
@[simp] theorem State.push_ack1TO (b : Byte) : (s.push b).ack1TO = s.ack1TO := rfl
@[simp] theorem State.push_ack2TO (b : Byte) : (s.push b).ack2TO = s.ack2TO := rfl
@[simp] theorem State.push_precheckWarn (b : Byte) : (s.push b).precheckWarn = s.precheckWarn := rfl
@[simp] theorem State.push_sawTerm (b : Byte) : (s.push b).sawTerm = s.sawTerm := rfl
@[simp] theorem State.push_matched (b : Byte) : (s.push b).matched = s.matched := rfl
@[simp] theorem State.push_fault (b : Byte) : (s.push b).fault = s.fault := rfl
@[simp] theorem State.push_frameOut (b : Byte) : (s.push b).frameOut = s.frameOut := rfl
@[simp] theorem State.push_dl (b : Byte) : (s.push b).dl = s.dl := rfl
@[simp] theorem State.push_trace (b : Byte) : (s.push b).trace = s.trace := rfl
@[simp] theorem State.push_cfg (b : Byte) : (s.push b).cfg = s.cfg := rfl
@[simp] theorem State.push_env (b : Byte) : (s.push b).env = s.env := rfl
@[simp] theorem State.push_host (b : Byte) : (s.push b).host = s.host := rfl
@[simp] theorem State.push_replies (b : Byte) : (s.push b).replies = s.replies := rfl

/-! ### noteTerm -/

@[simp] theorem State.noteTerm_st (b : Byte) : (s.noteTerm b).st = s.st := by
  unfold State.noteTerm; split <;> rfl
@[simp] theorem State.noteTerm_req (b : Byte) : (s.noteTerm b).req = s.req := by
  unfold State.noteTerm; split <;> rfl
@[simp] theorem State.noteTerm_frame (b : Byte) : (s.noteTerm b).frame = s.frame := by
  unfold State.noteTerm; split <;> rfl
@[simp] theorem State.noteTerm_resp (b : Byte) : (s.noteTerm b).resp = s.resp := by
  unfold State.noteTerm; split <;> rfl
@[simp] theorem State.noteTerm_count (b : Byte) : (s.noteTerm b).count = s.count := by
  unfold State.noteTerm; split <;> rfl
@[simp] theorem State.noteTerm_valid (b : Byte) : (s.noteTerm b).valid = s.valid := by
  unfold State.noteTerm; split <;> rfl
@[simp] theorem State.noteTerm_err (b : Byte) : (s.noteTerm b).err = s.err := by
  unfold State.noteTerm; split <;> rfl
@[simp] theorem State.noteTerm_ack1TO (b : Byte) : (s.noteTerm b).ack1TO = s.ack1TO := by
  unfold State.noteTerm; split <;> rfl
@[simp] theorem State.noteTerm_ack2TO (b : Byte) : (s.noteTerm b).ack2TO = s.ack2TO := by
  unfold State.noteTerm; split <;> rfl
@[simp] theorem State.noteTerm_precheckWarn (b : Byte) : (s.noteTerm b).precheckWarn = s.precheckWarn := by
  unfold State.noteTerm; split <;> rfl
@[simp] theorem State.noteTerm_sawTerm (b : Byte) : (s.noteTerm b).sawTerm = (s.sawTerm || decide (b = termByte)) := by
  by_cases h : b = termByte <;> simp [State.noteTerm, State.setSawTerm, h]
@[simp] theorem State.noteTerm_matched (b : Byte) : (s.noteTerm b).matched = s.matched := by
  unfold State.noteTerm; split <;> rfl
@[simp] theorem State.noteTerm_fault (b : Byte) : (s.noteTerm b).fault = s.fault := by
  unfold State.noteTerm; split <;> rfl
@[simp] theorem State.noteTerm_frameOut (b : Byte) : (s.noteTerm b).frameOut = s.frameOut := by
  unfold State.noteTerm; split <;> rfl
@[simp] theorem State.noteTerm_dl (b : Byte) : (s.noteTerm b).dl = s.dl := by
  unfold State.noteTerm; split <;> rfl
@[simp] theorem State.noteTerm_trace (b : Byte) : (s.noteTerm b).trace = s.trace := by
  unfold State.noteTerm; split <;> rfl
@[simp] theorem State.noteTerm_cfg (b : Byte) : (s.noteTerm b).cfg = s.cfg := by
  unfold State.noteTerm; split <;> rfl
@[simp] theorem State.noteTerm_env (b : Byte) : (s.noteTerm b).env = s.env := by
  unfold State.noteTerm; split <;> rfl
@[simp] theorem State.noteTerm_host (b : Byte) : (s.noteTerm b).host = s.host := by
  unfold State.noteTerm; split <;> rfl
@[simp] theorem State.noteTerm_replies (b : Byte) : (s.noteTerm b).replies = s.replies := by
  unfold State.noteTerm; split <;> rfl

/-! ### latch -/

@[simp] theorem latch_st (r : Request) (b0 : Byte) : (latch r b0 s).st = s.st := rfl
@[simp] theorem latch_req (r : Request) (b0 : Byte) : (latch r b0 s).req = some r := rfl
@[simp] theorem latch_frame (r : Request) (b0 : Byte) : (latch r b0 s).frame = (((s.frame.write 0 b0).write 1 r.opc).write 2 r.arg1).write 3 r.arg2 := rfl
@[simp] theorem latch_resp (r : Request) (b0 : Byte) : (latch r b0 s).resp = [] := rfl
@[simp] theorem latch_count (r : Request) (b0 : Byte) : (latch r b0 s).count = 0#16 := rfl
@[simp] theorem latch_valid (r : Request) (b0 : Byte) : (latch r b0 s).valid = false := rfl
@[simp] theorem latch_err (r : Request) (b0 : Byte) : (latch r b0 s).err = FailCode.none.code := rfl
@[simp] theorem latch_ack1TO (r : Request) (b0 : Byte) : (latch r b0 s).ack1TO = false := rfl
@[simp] theorem latch_ack2TO (r : Request) (b0 : Byte) : (latch r b0 s).ack2TO = false := rfl
@[simp] theorem latch_precheckWarn (r : Request) (b0 : Byte) : (latch r b0 s).precheckWarn = false := rfl
@[simp] theorem latch_sawTerm (r : Request) (b0 : Byte) : (latch r b0 s).sawTerm = false := rfl
@[simp] theorem latch_matched (r : Request) (b0 : Byte) : (latch r b0 s).matched = false := rfl
@[simp] theorem latch_fault (r : Request) (b0 : Byte) : (latch r b0 s).fault = s.fault := rfl
@[simp] theorem latch_frameOut (r : Request) (b0 : Byte) : (latch r b0 s).frameOut = s.frameOut := rfl
@[simp] theorem latch_dl (r : Request) (b0 : Byte) : (latch r b0 s).dl = none := rfl
@[simp] theorem latch_trace (r : Request) (b0 : Byte) : (latch r b0 s).trace = s.trace := rfl
@[simp] theorem latch_cfg (r : Request) (b0 : Byte) : (latch r b0 s).cfg = s.cfg := rfl
@[simp] theorem latch_env (r : Request) (b0 : Byte) : (latch r b0 s).env = s.env := rfl
@[simp] theorem latch_host (r : Request) (b0 : Byte) : (latch r b0 s).host = s.host := rfl
@[simp] theorem latch_replies (r : Request) (b0 : Byte) : (latch r b0 s).replies = s.replies := rfl

/-! ### armDeadline -/

@[simp] theorem State.armDeadline_st (d : Nat) : (s.armDeadline d).st = s.st := rfl
@[simp] theorem State.armDeadline_req (d : Nat) : (s.armDeadline d).req = s.req := rfl
@[simp] theorem State.armDeadline_frame (d : Nat) : (s.armDeadline d).frame = s.frame := rfl
@[simp] theorem State.armDeadline_resp (d : Nat) : (s.armDeadline d).resp = s.resp := rfl
@[simp] theorem State.armDeadline_count (d : Nat) : (s.armDeadline d).count = s.count := rfl
@[simp] theorem State.armDeadline_valid (d : Nat) : (s.armDeadline d).valid = s.valid := rfl
@[simp] theorem State.armDeadline_err (d : Nat) : (s.armDeadline d).err = s.err := rfl
@[simp] theorem State.armDeadline_ack1TO (d : Nat) : (s.armDeadline d).ack1TO = s.ack1TO := rfl
@[simp] theorem State.armDeadline_ack2TO (d : Nat) : (s.armDeadline d).ack2TO = s.ack2TO := rfl
@[simp] theorem State.armDeadline_precheckWarn (d : Nat) : (s.armDeadline d).precheckWarn = s.precheckWarn := rfl
@[simp] theorem State.armDeadline_sawTerm (d : Nat) : (s.armDeadline d).sawTerm = s.sawTerm := rfl
@[simp] theorem State.armDeadline_matched (d : Nat) : (s.armDeadline d).matched = s.matched := rfl
@[simp] theorem State.armDeadline_fault (d : Nat) : (s.armDeadline d).fault = s.fault := rfl
@[simp] theorem State.armDeadline_frameOut (d : Nat) : (s.armDeadline d).frameOut = s.frameOut := rfl
@[simp] theorem State.armDeadline_dl (d : Nat) : (s.armDeadline d).dl = some d := rfl
@[simp] theorem State.armDeadline_trace (d : Nat) : (s.armDeadline d).trace = s.trace := rfl
@[simp] theorem State.armDeadline_cfg (d : Nat) : (s.armDeadline d).cfg = s.cfg := rfl
@[simp] theorem State.armDeadline_env (d : Nat) : (s.armDeadline d).env = s.env := rfl
@[simp] theorem State.armDeadline_host (d : Nat) : (s.armDeadline d).host = s.host := rfl
@[simp] theorem State.armDeadline_replies (d : Nat) : (s.armDeadline d).replies = s.replies := rfl

/-! ### setFrameOut -/

@[simp] theorem State.setFrameOut_st (b : Bool) : (s.setFrameOut b).st = s.st := rfl
@[simp] theorem State.setFrameOut_req (b : Bool) : (s.setFrameOut b).req = s.req := rfl
@[simp] theorem State.setFrameOut_frame (b : Bool) : (s.setFrameOut b).frame = s.frame := rfl
@[simp] theorem State.setFrameOut_resp (b : Bool) : (s.setFrameOut b).resp = s.resp := rfl
@[simp] theorem State.setFrameOut_count (b : Bool) : (s.setFrameOut b).count = s.count := rfl
@[simp] theorem State.setFrameOut_valid (b : Bool) : (s.setFrameOut b).valid = s.valid := rfl
@[simp] theorem State.setFrameOut_err (b : Bool) : (s.setFrameOut b).err = s.err := rfl
@[simp] theorem State.setFrameOut_ack1TO (b : Bool) : (s.setFrameOut b).ack1TO = s.ack1TO := rfl
@[simp] theorem State.setFrameOut_ack2TO (b : Bool) : (s.setFrameOut b).ack2TO = s.ack2TO := rfl
@[simp] theorem State.setFrameOut_precheckWarn (b : Bool) : (s.setFrameOut b).precheckWarn = s.precheckWarn := rfl
@[simp] theorem State.setFrameOut_sawTerm (b : Bool) : (s.setFrameOut b).sawTerm = s.sawTerm := rfl
@[simp] theorem State.setFrameOut_matched (b : Bool) : (s.setFrameOut b).matched = s.matched := rfl
@[simp] theorem State.setFrameOut_fault (b : Bool) : (s.setFrameOut b).fault = s.fault := rfl
@[simp] theorem State.setFrameOut_frameOut (b : Bool) : (s.setFrameOut b).frameOut = b := rfl
@[simp] theorem State.setFrameOut_dl (b : Bool) : (s.setFrameOut b).dl = s.dl := rfl
@[simp] theorem State.setFrameOut_trace (b : Bool) : (s.setFrameOut b).trace = s.trace := rfl
@[simp] theorem State.setFrameOut_cfg (b : Bool) : (s.setFrameOut b).cfg = s.cfg := rfl
@[simp] theorem State.setFrameOut_env (b : Bool) : (s.setFrameOut b).env = s.env := rfl
@[simp] theorem State.setFrameOut_host (b : Bool) : (s.setFrameOut b).host = s.host := rfl
@[simp] theorem State.setFrameOut_replies (b : Bool) : (s.setFrameOut b).replies = s.replies := rfl

/-! ### setAck1TO -/

@[simp] theorem State.setAck1TO_st : (s.setAck1TO).st = s.st := rfl
@[simp] theorem State.setAck1TO_req : (s.setAck1TO).req = s.req := rfl
@[simp] theorem State.setAck1TO_frame : (s.setAck1TO).frame = s.frame := rfl
@[simp] theorem State.setAck1TO_resp : (s.setAck1TO).resp = s.resp := rfl
@[simp] theorem State.setAck1TO_count : (s.setAck1TO).count = s.count := rfl
@[simp] theorem State.setAck1TO_valid : (s.setAck1TO).valid = s.valid := rfl
@[simp] theorem State.setAck1TO_err : (s.setAck1TO).err = s.err := rfl
@[simp] theorem State.setAck1TO_ack1TO : (s.setAck1TO).ack1TO = true := rfl
@[simp] theorem State.setAck1TO_ack2TO : (s.setAck1TO).ack2TO = s.ack2TO := rfl
@[simp] theorem State.setAck1TO_precheckWarn : (s.setAck1TO).precheckWarn = s.precheckWarn := rfl
@[simp] theorem State.setAck1TO_sawTerm : (s.setAck1TO).sawTerm = s.sawTerm := rfl
@[simp] theorem State.setAck1TO_matched : (s.setAck1TO).matched = s.matched := rfl
@[simp] theorem State.setAck1TO_fault : (s.setAck1TO).fault = s.fault := rfl
@[simp] theorem State.setAck1TO_frameOut : (s.setAck1TO).frameOut = s.frameOut := rfl
@[simp] theorem State.setAck1TO_dl : (s.setAck1TO).dl = s.dl := rfl
@[simp] theorem State.setAck1TO_trace : (s.setAck1TO).trace = s.trace := rfl
@[simp] theorem State.setAck1TO_cfg : (s.setAck1TO).cfg = s.cfg := rfl
@[simp] theorem State.setAck1TO_env : (s.setAck1TO).env = s.env := rfl
@[simp] theorem State.setAck1TO_host : (s.setAck1TO).host = s.host := rfl
@[simp] theorem State.setAck1TO_replies : (s.setAck1TO).replies = s.replies := rfl

/-! ### setAck2TO -/

@[simp] theorem State.setAck2TO_st : (s.setAck2TO).st = s.st := rfl
@[simp] theorem State.setAck2TO_req : (s.setAck2TO).req = s.req := rfl
@[simp] theorem State.setAck2TO_frame : (s.setAck2TO).frame = s.frame := rfl
@[simp] theorem State.setAck2TO_resp : (s.setAck2TO).resp = s.resp := rfl
@[simp] theorem State.setAck2TO_count : (s.setAck2TO).count = s.count := rfl
@[simp] theorem State.setAck2TO_valid : (s.setAck2TO).valid = s.valid := rfl
@[simp] theorem State.setAck2TO_err : (s.setAck2TO).err = s.err := rfl
@[simp] theorem State.setAck2TO_ack1TO : (s.setAck2TO).ack1TO = s.ack1TO := rfl
@[simp] theorem State.setAck2TO_ack2TO : (s.setAck2TO).ack2TO = true := rfl
@[simp] theorem State.setAck2TO_precheckWarn : (s.setAck2TO).precheckWarn = s.precheckWarn := rfl
@[simp] theorem State.setAck2TO_sawTerm : (s.setAck2TO).sawTerm = s.sawTerm := rfl
@[simp] theorem State.setAck2TO_matched : (s.setAck2TO).matched = s.matched := rfl
@[simp] theorem State.setAck2TO_fault : (s.setAck2TO).fault = s.fault := rfl
@[simp] theorem State.setAck2TO_frameOut : (s.setAck2TO).frameOut = s.frameOut := rfl
@[simp] theorem State.setAck2TO_dl : (s.setAck2TO).dl = s.dl := rfl
@[simp] theorem State.setAck2TO_trace : (s.setAck2TO).trace = s.trace := rfl
@[simp] theorem State.setAck2TO_cfg : (s.setAck2TO).cfg = s.cfg := rfl
@[simp] theorem State.setAck2TO_env : (s.setAck2TO).env = s.env := rfl
@[simp] theorem State.setAck2TO_host : (s.setAck2TO).host = s.host := rfl
@[simp] theorem State.setAck2TO_replies : (s.setAck2TO).replies = s.replies := rfl

/-! ### setPrecheckWarn -/

@[simp] theorem State.setPrecheckWarn_st : (s.setPrecheckWarn).st = s.st := rfl
@[simp] theorem State.setPrecheckWarn_req : (s.setPrecheckWarn).req = s.req := rfl
@[simp] theorem State.setPrecheckWarn_frame : (s.setPrecheckWarn).frame = s.frame := rfl
@[simp] theorem State.setPrecheckWarn_resp : (s.setPrecheckWarn).resp = s.resp := rfl
@[simp] theorem State.setPrecheckWarn_count : (s.setPrecheckWarn).count = s.count := rfl
@[simp] theorem State.setPrecheckWarn_valid : (s.setPrecheckWarn).valid = s.valid := rfl
@[simp] theorem State.setPrecheckWarn_err : (s.setPrecheckWarn).err = s.err := rfl
@[simp] theorem State.setPrecheckWarn_ack1TO : (s.setPrecheckWarn).ack1TO = s.ack1TO := rfl
@[simp] theorem State.setPrecheckWarn_ack2TO : (s.setPrecheckWarn).ack2TO = s.ack2TO := rfl
@[simp] theorem State.setPrecheckWarn_precheckWarn : (s.setPrecheckWarn).precheckWarn = true := rfl
@[simp] theorem State.setPrecheckWarn_sawTerm : (s.setPrecheckWarn).sawTerm = s.sawTerm := rfl
@[simp] theorem State.setPrecheckWarn_matched : (s.setPrecheckWarn).matched = s.matched := rfl
@[simp] theorem State.setPrecheckWarn_fault : (s.setPrecheckWarn).fault = s.fault := rfl
@[simp] theorem State.setPrecheckWarn_frameOut : (s.setPrecheckWarn).frameOut = s.frameOut := rfl
@[simp] theorem State.setPrecheckWarn_dl : (s.setPrecheckWarn).dl = s.dl := rfl
@[simp] theorem State.setPrecheckWarn_trace : (s.setPrecheckWarn).trace = s.trace := rfl
@[simp] theorem State.setPrecheckWarn_cfg : (s.setPrecheckWarn).cfg = s.cfg := rfl
@[simp] theorem State.setPrecheckWarn_env : (s.setPrecheckWarn).env = s.env := rfl
@[simp] theorem State.setPrecheckWarn_host : (s.setPrecheckWarn).host = s.host := rfl
@[simp] theorem State.setPrecheckWarn_replies : (s.setPrecheckWarn).replies = s.replies := rfl

/-! ### setSawTerm -/

@[simp] theorem State.setSawTerm_st : (s.setSawTerm).st = s.st := rfl
@[simp] theorem State.setSawTerm_req : (s.setSawTerm).req = s.req := rfl
@[simp] theorem State.setSawTerm_frame : (s.setSawTerm).frame = s.frame := rfl
@[simp] theorem State.setSawTerm_resp : (s.setSawTerm).resp = s.resp := rfl
@[simp] theorem State.setSawTerm_count : (s.setSawTerm).count = s.count := rfl
@[simp] theorem State.setSawTerm_valid : (s.setSawTerm).valid = s.valid := rfl
@[simp] theorem State.setSawTerm_err : (s.setSawTerm).err = s.err := rfl
@[simp] theorem State.setSawTerm_ack1TO : (s.setSawTerm).ack1TO = s.ack1TO := rfl
@[simp] theorem State.setSawTerm_ack2TO : (s.setSawTerm).ack2TO = s.ack2TO := rfl
@[simp] theorem State.setSawTerm_precheckWarn : (s.setSawTerm).precheckWarn = s.precheckWarn := rfl
@[simp] theorem State.setSawTerm_sawTerm : (s.setSawTerm).sawTerm = true := rfl
@[simp] theorem State.setSawTerm_matched : (s.setSawTerm).matched = s.matched := rfl
@[simp] theorem State.setSawTerm_fault : (s.setSawTerm).fault = s.fault := rfl
@[simp] theorem State.setSawTerm_frameOut : (s.setSawTerm).frameOut = s.frameOut := rfl
@[simp] theorem State.setSawTerm_dl : (s.setSawTerm).dl = s.dl := rfl
@[simp] theorem State.setSawTerm_trace : (s.setSawTerm).trace = s.trace := rfl
@[simp] theorem State.setSawTerm_cfg : (s.setSawTerm).cfg = s.cfg := rfl
@[simp] theorem State.setSawTerm_env : (s.setSawTerm).env = s.env := rfl
@[simp] theorem State.setSawTerm_host : (s.setSawTerm).host = s.host := rfl
@[simp] theorem State.setSawTerm_replies : (s.setSawTerm).replies = s.replies := rfl

/-! ### setFault -/

@[simp] theorem State.setFault_st : (s.setFault).st = s.st := rfl
@[simp] theorem State.setFault_req : (s.setFault).req = s.req := rfl
@[simp] theorem State.setFault_frame : (s.setFault).frame = s.frame := rfl
@[simp] theorem State.setFault_resp : (s.setFault).resp = s.resp := rfl
@[simp] theorem State.setFault_count : (s.setFault).count = s.count := rfl
@[simp] theorem State.setFault_valid : (s.setFault).valid = s.valid := rfl
@[simp] theorem State.setFault_err : (s.setFault).err = s.err := rfl
@[simp] theorem State.setFault_ack1TO : (s.setFault).ack1TO = s.ack1TO := rfl
@[simp] theorem State.setFault_ack2TO : (s.setFault).ack2TO = s.ack2TO := rfl
@[simp] theorem State.setFault_precheckWarn : (s.setFault).precheckWarn = s.precheckWarn := rfl
@[simp] theorem State.setFault_sawTerm : (s.setFault).sawTerm = s.sawTerm := rfl
@[simp] theorem State.setFault_matched : (s.setFault).matched = s.matched := rfl
@[simp] theorem State.setFault_fault : (s.setFault).fault = true := rfl
@[simp] theorem State.setFault_frameOut : (s.setFault).frameOut = s.frameOut := rfl
@[simp] theorem State.setFault_dl : (s.setFault).dl = s.dl := rfl
@[simp] theorem State.setFault_trace : (s.setFault).trace = s.trace := rfl
@[simp] theorem State.setFault_cfg : (s.setFault).cfg = s.cfg := rfl
@[simp] theorem State.setFault_env : (s.setFault).env = s.env := rfl
@[simp] theorem State.setFault_host : (s.setFault).host = s.host := rfl
@[simp] theorem State.setFault_replies : (s.setFault).replies = s.replies := rfl

/-! ### zeroCount -/

@[simp] theorem State.zeroCount_st : (s.zeroCount).st = s.st := rfl
@[simp] theorem State.zeroCount_req : (s.zeroCount).req = s.req := rfl
@[simp] theorem State.zeroCount_frame : (s.zeroCount).frame = s.frame := rfl
@[simp] theorem State.zeroCount_resp : (s.zeroCount).resp = s.resp := rfl
@[simp] theorem State.zeroCount_count : (s.zeroCount).count = 0#16 := rfl
@[simp] theorem State.zeroCount_valid : (s.zeroCount).valid = s.valid := rfl
@[simp] theorem State.zeroCount_err : (s.zeroCount).err = s.err := rfl
@[simp] theorem State.zeroCount_ack1TO : (s.zeroCount).ack1TO = s.ack1TO := rfl
@[simp] theorem State.zeroCount_ack2TO : (s.zeroCount).ack2TO = s.ack2TO := rfl
@[simp] theorem State.zeroCount_precheckWarn : (s.zeroCount).precheckWarn = s.precheckWarn := rfl
@[simp] theorem State.zeroCount_sawTerm : (s.zeroCount).sawTerm = s.sawTerm := rfl
@[simp] theorem State.zeroCount_matched : (s.zeroCount).matched = s.matched := rfl
@[simp] theorem State.zeroCount_fault : (s.zeroCount).fault = s.fault := rfl
@[simp] theorem State.zeroCount_frameOut : (s.zeroCount).frameOut = s.frameOut := rfl
@[simp] theorem State.zeroCount_dl : (s.zeroCount).dl = s.dl := rfl
@[simp] theorem State.zeroCount_trace : (s.zeroCount).trace = s.trace := rfl
@[simp] theorem State.zeroCount_cfg : (s.zeroCount).cfg = s.cfg := rfl
@[simp] theorem State.zeroCount_env : (s.zeroCount).env = s.env := rfl
@[simp] theorem State.zeroCount_host : (s.zeroCount).host = s.host := rfl
@[simp] theorem State.zeroCount_replies : (s.zeroCount).replies = s.replies := rfl

/-! ### afterPoll -/

@[simp] theorem afterPoll_st (l : Line) : (afterPoll l s).st = s.st := rfl
@[simp] theorem afterPoll_req (l : Line) : (afterPoll l s).req = s.req := rfl
@[simp] theorem afterPoll_frame (l : Line) : (afterPoll l s).frame = s.frame := rfl
@[simp] theorem afterPoll_resp (l : Line) : (afterPoll l s).resp = s.resp := rfl
@[simp] theorem afterPoll_count (l : Line) : (afterPoll l s).count = s.count := rfl
@[simp] theorem afterPoll_valid (l : Line) : (afterPoll l s).valid = s.valid := rfl
@[simp] theorem afterPoll_err (l : Line) : (afterPoll l s).err = s.err := rfl
@[simp] theorem afterPoll_ack1TO (l : Line) : (afterPoll l s).ack1TO = s.ack1TO := rfl
@[simp] theorem afterPoll_ack2TO (l : Line) : (afterPoll l s).ack2TO = s.ack2TO := rfl
@[simp] theorem afterPoll_precheckWarn (l : Line) : (afterPoll l s).precheckWarn = s.precheckWarn := rfl
@[simp] theorem afterPoll_sawTerm (l : Line) : (afterPoll l s).sawTerm = s.sawTerm := rfl
@[simp] theorem afterPoll_matched (l : Line) : (afterPoll l s).matched = s.matched := rfl
@[simp] theorem afterPoll_fault (l : Line) : (afterPoll l s).fault = s.fault := rfl
@[simp] theorem afterPoll_frameOut (l : Line) : (afterPoll l s).frameOut = s.frameOut := rfl
@[simp] theorem afterPoll_dl (l : Line) : (afterPoll l s).dl = s.dl := rfl
@[simp] theorem afterPoll_trace (l : Line) : (afterPoll l s).trace = s.trace ++ [.readLine l (s.lineAnswer l), .now (s.callReadLine l).nowAnswer] := by
  simp [afterPoll]
@[simp] theorem afterPoll_cfg (l : Line) : (afterPoll l s).cfg = s.cfg := rfl
@[simp] theorem afterPoll_env (l : Line) : (afterPoll l s).env = { s.env.dropLine l with elapsed := (s.env.dropLine l).elapsed.tail } := rfl
@[simp] theorem afterPoll_host (l : Line) : (afterPoll l s).host = s.host := rfl
@[simp] theorem afterPoll_replies (l : Line) : (afterPoll l s).replies = s.replies := rfl

end Sys2Proof.Machine
end

