-- ==== Sys2Proof/Laws/Ops.lean ====
section
/-! SUPPORT. What each shared operation can do, said once: the meanings of the request forms, acceptance,
the poll, the step rules, and the step. A proof cites these and does not unfold the operations. -/

namespace Sys2Proof.Machine

/-! ### Presenting a request -/

/-- Every meaning is `present` of the fields the form latches, under the condition R68 tests. -/
theorem exec_eq_present (i : Instr) (s : State) :
    exec i s = present (Request.ofInstr i) (callerByte i) (rowCondition s.cfg.cap i) s := by
  cases i <;> rfl

/-- `present` where the block is quiescent and not faulted: acceptance (R75). -/
theorem present_quiescent {s : State} {p : Phase} (hp : s.phase = some p) (hq : p.quiescent = true)
    (hf : s.fault = false) (r : Request) (b0 : Byte) (legal : Bool) :
    present r b0 legal s = .next (accept r b0 legal s) := by
  simp [present, hp, hq, hf]

/-- `present` where the block is busy and not faulted: `CONCURRENT_REQUEST` (R76). -/
theorem present_busy {s : State} {p : Phase} (hp : s.phase = some p) (hq : p.quiescent = false)
    (hf : s.fault = false) (r : Request) (b0 : Byte) (legal : Bool) :
    present r b0 legal s = .next s.setFault := by
  simp [present, hp, hq, hf]

/-- Everything a presented request can do when it answers a next state. -/
theorem present_cases {r : Request} {b0 : Byte} {legal : Bool} {s t : State}
    (h : present r b0 legal s = .next t) :
    ∃ p, s.phase = some p ∧ s.fault = false ∧
      ((p.quiescent = true ∧ t = accept r b0 legal s) ∨
        (p.quiescent = false ∧ t = s.setFault)) := by
  unfold present at h
  split at h
  · cases h
  · next p hp =>
    refine ⟨p, hp, ?_⟩
    split at h
    · cases h
    · next hf =>
      refine ⟨by simpa using hf, ?_⟩
      split at h
      · next hq => exact .inl ⟨hq, by simpa using h.symm⟩
      · next hq => exact .inr ⟨by simpa using hq, by simpa using h.symm⟩

/-- Everything acceptance can do (R75): an illegal request, a transport that is not ready, the pre-check of
an `AckAware` request, or none. -/
theorem accept_cases (r : Request) (b0 : Byte) (legal : Bool) (s : State) :
    (legal = false ∧ accept r b0 legal s = (latch r b0 s).failWith .invalidArgument) ∨
    (legal = true ∧ (latch r b0 s).readyAnswer = false ∧
      accept r b0 legal s = (latch r b0 s).callReady.failWith .busUnavailable) ∨
    (legal = true ∧ (latch r b0 s).readyAnswer = true ∧ r.policy = .ackAware ∧
      accept r b0 legal s = (precheck (latch r b0 s).callReady).goto .faDrive) ∨
    (legal = true ∧ (latch r b0 s).readyAnswer = true ∧ r.policy = .default ∧
      accept r b0 legal s = (latch r b0 s).callReady.goto .faDrive) := by
  cases legal
  · exact .inl ⟨rfl, rfl⟩
  · right
    cases hr : (latch r b0 s).readyAnswer
    · exact .inl ⟨rfl, rfl, by simp [accept, hr]⟩
    · right
      cases hp : r.policy
      · exact .inr ⟨rfl, rfl, rfl, by simp [accept, hr, hp]⟩
      · exact .inl ⟨rfl, rfl, rfl, by simp [accept, hr, hp]⟩

/-- The pre-check records a low level and does nothing else but its port call (R84). -/
theorem precheck_cases (s : State) :
    (s.lineAnswer .ack = ackAssertLevel ∧ precheck s = (s.callReadLine .ack).setPrecheckWarn) ∨
    (s.lineAnswer .ack ≠ ackAssertLevel ∧ precheck s = s.callReadLine .ack) := by
  by_cases h : s.lineAnswer .ack = ackAssertLevel
  · exact .inl ⟨h, by simp [precheck, h]⟩
  · exact .inr ⟨h, by simp [precheck, h]⟩

/-! ### The poll -/

/-- Everything one poll iteration can find (R93). -/
theorem pollIter_cases (l : Line) (want : Bool) (s : State) :
    (s.lineAnswer l = want ∧ pollIter l want s = some (.hit (s.callReadLine l).nowAnswer)) ∨
    (s.lineAnswer l ≠ want ∧ s.dl = none ∧ pollIter l want s = none) ∨
    (∃ d, s.lineAnswer l ≠ want ∧ s.dl = some d ∧ d ≤ (s.callReadLine l).nowAnswer ∧
      pollIter l want s = some (.timeout (s.callReadLine l).nowAnswer)) ∨
    (∃ d, s.lineAnswer l ≠ want ∧ s.dl = some d ∧ (s.callReadLine l).nowAnswer < d ∧
      pollIter l want s = some .again) := by
  by_cases hv : s.lineAnswer l = want
  · exact .inl ⟨hv, by simp [pollIter, hv]⟩
  · right
    cases hd : s.dl with
    | none => exact .inl ⟨hv, rfl, by simp [pollIter, hv, hd]⟩
    | some d =>
      right
      by_cases ht : d ≤ (s.callReadLine l).nowAnswer
      · exact .inl ⟨d, hv, rfl, ht, by simp [pollIter, hv, hd, ht]⟩
      · exact .inr ⟨d, hv, rfl, by omega, by simp [pollIter, hv, hd, ht]⟩

/-! ### The block's step -/

/-- With `FAULT = 0` and no reserved code, the block takes the step of `ST` (R77). -/
theorem blockStep_of_phase {s : State} {p : Phase} (hp : s.phase = some p) (hf : s.fault = false) :
    blockStep s =
      match p with
      | .idle | .complete | .failed => .next s
      | .faDrive => stepFaDrive s
      | .faVerify => stepFaVerify s
      | .xmit => stepXmit s
      | .ackW1 => stepAckW1 s
      | .ackW2 => stepAckW2 s
      | .read => stepRead s
      | .deassert => stepDeassert s := by
  cases p <;> simp [blockStep, hp, hf]

/-- A block step that answers a next state starts in a state with no reserved code and `FAULT = 0`. -/
theorem blockStep_starts {s t : State} (h : blockStep s = .next t) :
    ∃ p, s.phase = some p ∧ s.fault = false := by
  unfold blockStep at h
  split at h
  · cases h
  · next p hp =>
    refine ⟨p, hp, ?_⟩
    split at h
    · cases h
    · next hf => simpa using hf

theorem stepFaVerify_cases {s t : State} (h : stepFaVerify s = .next t) :
    (s.lineAnswer .frame = s.cfg.frameAssertLevel ∧ t = (afterPoll .frame s).goto .xmit) ∨
    (∃ d, s.lineAnswer .frame ≠ s.cfg.frameAssertLevel ∧ s.dl = some d ∧
      d ≤ (s.callReadLine .frame).nowAnswer ∧ t = (afterPoll .frame s).raise .frameAssertFailure) ∨
    (∃ d, s.lineAnswer .frame ≠ s.cfg.frameAssertLevel ∧ s.dl = some d ∧
      (s.callReadLine .frame).nowAnswer < d ∧ t = (afterPoll .frame s).goto .faVerify) := by
  rcases pollIter_cases .frame s.cfg.frameAssertLevel s with ⟨hv, hp⟩ | ⟨-, -, hp⟩ | ⟨d, hv, hd, ht, hp⟩ | ⟨d, hv, hd, ht, hp⟩
  · exact .inl ⟨hv, by simpa [stepFaVerify, hp] using h.symm⟩
  · simp [stepFaVerify, hp] at h
  · exact .inr (.inl ⟨d, hv, hd, ht, by simpa [stepFaVerify, hp] using h.symm⟩)
  · exact .inr (.inr ⟨d, hv, hd, ht, by simpa [stepFaVerify, hp] using h.symm⟩)

theorem stepXmit_cases {s t : State} (h : stepXmit s = .next t) :
    ∃ r b1 b2 b3, s.req = some r ∧ s.readFrame 1 = some b1 ∧ s.readFrame 2 = some b2 ∧
      s.readFrame 3 = some b3 ∧ t = sendFrame r r.destination b1 b2 b3 (s.writeFrame 0 r.destination) := by
  unfold stepXmit at h
  split at h
  · cases h
  · next r hr =>
    dsimp only at h
    split at h
    · next b0 b1 b2 b3 h0 h1 h2 h3 =>
      simp only [State.readFrame, State.writeFrame_frame, Fin.val_zero, Memory.read_write_self,
        Option.some.injEq] at h0
      refine ⟨r, b1, b2, b3, hr, ?_, ?_, ?_, ?_⟩
      · simpa [State.readFrame, Memory.read_write] using h1
      · simpa [State.readFrame, Memory.read_write] using h2
      · simpa [State.readFrame, Memory.read_write] using h3
      · subst h0; simpa using h.symm
    · cases h

theorem sendFrame_cases (r : Request) (b0 b1 b2 b3 : Byte) (s : State) :
    (s.exchangeAnswer = false ∧ sendFrame r b0 b1 b2 b3 s =
      (s.callExchange b0 b1 b2 b3).zeroCount.raise .transmitFailure) ∨
    (s.exchangeAnswer = true ∧ sendFrame r b0 b1 b2 b3 s =
      ((s.callExchange b0 b1 b2 b3).callNow.armDeadline
        ((s.callExchange b0 b1 b2 b3).nowAnswer + r.tAck1 s.cfg)).goto .ackW1) := by
  cases h : s.exchangeAnswer
  · exact .inl ⟨rfl, by simp [sendFrame, h]⟩
  · exact .inr ⟨rfl, by simp [sendFrame, h]⟩

theorem endShortWait_cases (r : Request) (n : Nat) (s : State) :
    (r.mode = modeW ∧ s.ack1TO = true ∧ s.cfg.noackWriteValid = false ∧
      endShortWait r n s = s.raise .ackTimeout) ∨
    (r.mode = modeW ∧ ¬(s.ack1TO = true ∧ s.cfg.noackWriteValid = false) ∧
      endShortWait r n s = s.goto .deassert) ∨
    (r.mode ≠ modeW ∧ endShortWait r n s = (s.armDeadline (n + r.tAck2 s.cfg)).goto .ackW2) := by
  by_cases hm : r.mode = modeW
  · by_cases hc : s.ack1TO = true ∧ s.cfg.noackWriteValid = false
    · exact .inl ⟨hm, hc.1, hc.2, by simp [endShortWait, hm, hc]⟩
    · exact .inr (.inl ⟨hm, hc, by simp only [endShortWait, if_pos hm, if_neg hc]⟩)
  · exact .inr (.inr ⟨hm, by simp [endShortWait, hm]⟩)

theorem stepAckW1_cases {s t : State} (h : stepAckW1 s = .next t) :
    (∃ r, s.req = some r ∧ s.lineAnswer .ack = ackAssertLevel ∧
      t = endShortWait r (s.callReadLine .ack).nowAnswer (afterPoll .ack s)) ∨
    (∃ r d, s.req = some r ∧ s.lineAnswer .ack ≠ ackAssertLevel ∧ s.dl = some d ∧
      d ≤ (s.callReadLine .ack).nowAnswer ∧
      t = endShortWait r (s.callReadLine .ack).nowAnswer (afterPoll .ack s).setAck1TO) ∨
    (∃ d, s.lineAnswer .ack ≠ ackAssertLevel ∧ s.dl = some d ∧ (s.callReadLine .ack).nowAnswer < d ∧
      t = (afterPoll .ack s).goto .ackW1) := by
  rcases pollIter_cases .ack ackAssertLevel s with ⟨hv, hp⟩ | ⟨-, -, hp⟩ | ⟨d, hv, hd, ht, hp⟩ | ⟨d, hv, hd, ht, hp⟩
  · cases hr : s.req with
    | none => simp [stepAckW1, hp, hr] at h
    | some r => exact .inl ⟨r, rfl, hv, by simpa [stepAckW1, hp, hr] using h.symm⟩
  · simp [stepAckW1, hp] at h
  · cases hr : s.req with
    | none => simp [stepAckW1, hp, hr] at h
    | some r => exact .inr (.inl ⟨r, d, rfl, hv, hd, ht, by simpa [stepAckW1, hp, hr] using h.symm⟩)
  · exact .inr (.inr ⟨d, hv, hd, ht, by simpa [stepAckW1, hp] using h.symm⟩)

theorem stepAckW2_cases {s t : State} (h : stepAckW2 s = .next t) :
    (s.lineAnswer .ack = ackAssertLevel ∧ t = (afterPoll .ack s).goto .read) ∨
    (∃ d, s.lineAnswer .ack ≠ ackAssertLevel ∧ s.dl = some d ∧ d ≤ (s.callReadLine .ack).nowAnswer ∧
      t = (afterPoll .ack s).setAck2TO.raise .ackTimeout) ∨
    (∃ d, s.lineAnswer .ack ≠ ackAssertLevel ∧ s.dl = some d ∧ (s.callReadLine .ack).nowAnswer < d ∧
      t = (afterPoll .ack s).goto .ackW2) := by
  rcases pollIter_cases .ack ackAssertLevel s with ⟨hv, hp⟩ | ⟨-, -, hp⟩ | ⟨d, hv, hd, ht, hp⟩ | ⟨d, hv, hd, ht, hp⟩
  · exact .inl ⟨hv, by simpa [stepAckW2, hp] using h.symm⟩
  · simp [stepAckW2, hp] at h
  · exact .inr (.inl ⟨d, hv, hd, ht, by simpa [stepAckW2, hp] using h.symm⟩)
  · exact .inr (.inr ⟨d, hv, hd, ht, by simpa [stepAckW2, hp] using h.symm⟩)

/-- Everything one read of a byte can do (R101 to R103). -/
theorem readOne_cases {r : Request} {done : Byte → State → State} {s t : State}
    (h : readOne r done s = .next t) :
    (s.byteAnswer = none ∧ t = (s.callReadByte (r.tByte s.cfg)).raise .readTruncated) ∨
    (∃ b, s.byteAnswer = some b ∧ s.count.toNat < s.cfg.cap ∧
      t = done b ((s.callReadByte (r.tByte s.cfg)).push b)) := by
  unfold readOne at h
  cases hb : s.byteAnswer with
  | none => exact .inl ⟨rfl, by simpa [hb] using h.symm⟩
  | some b =>
    right
    simp only [hb] at h
    split at h
    · cases h
    · next s2 h2 =>
      obtain ⟨hc, -, rfl⟩ := State.append_eq_some h2
      exact ⟨b, rfl, by simpa using hc, by simpa using h.symm⟩

theorem stepRead_cases {s t : State} (h : stepRead s = .next t) :
    ∃ r, s.req = some r ∧
      ((r.mode = modeR ∧ readOne r (fun _ => afterByteR r) s = .next t) ∨
        (r.mode = modeT ∧ readOne r afterByteT s = .next t)) := by
  unfold stepRead at h
  split at h
  · cases h
  · next r hr =>
    refine ⟨r, hr, ?_⟩
    split at h
    · next hm => exact .inl ⟨hm, h⟩
    · split at h
      · next hm => exact .inr ⟨hm, h⟩
      · cases h

theorem afterByteR_cases (r : Request) (s : State) :
    (s.count.toNat = r.n.toNat ∧ afterByteR r s = s.goto .deassert) ∨
    (s.count.toNat ≠ r.n.toNat ∧ afterByteR r s = s.goto .read) := by
  by_cases h : s.count.toNat = r.n.toNat
  · exact .inl ⟨h, by simp [afterByteR, h]⟩
  · exact .inr ⟨h, by simp [afterByteR, h]⟩

/-- Everything that follows a stored byte of a terminator read (R105, R106). -/
theorem afterByteT_cases (b : Byte) (s : State) :
    (s.sawTerm = true ∧ afterByteT b s = s.goto .deassert) ∨
    (s.sawTerm = false ∧ s.count.toNat = s.cfg.cap ∧
      afterByteT b s = (s.noteTerm b).raise .bufferOverflow) ∨
    (s.sawTerm = false ∧ s.count.toNat ≠ s.cfg.cap ∧
      afterByteT b s = (s.noteTerm b).goto .read) := by
  cases hs : s.sawTerm
  · right
    by_cases hc : s.count.toNat = s.cfg.cap
    · exact .inl ⟨rfl, hc, by simp [afterByteT, hs, hc]⟩
    · exact .inr ⟨rfl, hc, by simp [afterByteT, hs, hc]⟩
  · exact .inl ⟨rfl, by simp [afterByteT, hs]⟩

theorem State.settle_success {s : State} (h : s.err = FailCode.none.code) (m : Bool) :
    s.settle m = { s with valid := true, matched := m, st := Phase.complete.code } := by
  rw [State.settle, if_pos h]

theorem State.settle_failure {s : State} (h : s.err ≠ FailCode.none.code) (m : Bool) :
    s.settle m = { s with valid := false, matched := false, st := Phase.failed.code } := by
  rw [State.settle, if_neg h]

/-- Everything the deassert can do (R90, R110). -/
theorem stepDeassert_cases {s t : State} (h : stepDeassert s = .next t) :
    (s.err = FailCode.none.code ∧ ∃ m, matchAfter s = some m ∧
      t = ((s.callSetLine .frame (!s.cfg.frameAssertLevel)).setFrameOut false).settle m) ∨
    (s.err ≠ FailCode.none.code ∧
      t = ((s.callSetLine .frame (!s.cfg.frameAssertLevel)).setFrameOut false).settle false) := by
  unfold stepDeassert at h
  by_cases he : s.err = FailCode.none.code
  · left
    simp only [if_pos he] at h
    split at h
    · cases h
    · next m hm => exact ⟨he, m, hm, by simpa using h.symm⟩
  · exact .inr ⟨he, by simpa [he] using h.symm⟩

/-! ### The block does not look at the host -/

theorem pollIter_host (l : Line) (want : Bool) (s : State) (hs : List HostInput) :
    pollIter l want { s with host := hs } = pollIter l want s := by cases l <;> rfl

/-- A byte read that its continuation makes whatever the host holds. -/
theorem readOne_host {r : Request} {done : Byte → State → State} {s t : State}
    (hd : ∀ b (x : State) (hs : List HostInput), done b { x with host := hs } = { done b x with host := hs })
    (h : readOne r done s = .next t) (hs : List HostInput) :
    readOne r done { s with host := hs } = .next { t with host := hs } := by
  unfold readOne at h ⊢
  have hb : ({ s with host := hs } : State).byteAnswer = s.byteAnswer := rfl
  rw [hb]
  dsimp only at h ⊢
  cases hv : s.byteAnswer with
  | none => rw [hv] at h; cases h; rfl
  | some b =>
    rw [hv] at h
    by_cases hc : s.count.toNat < s.cfg.cap
    · have ha : (s.callReadByte (r.tByte s.cfg)).append b = some ((s.callReadByte (r.tByte s.cfg)).push b) :=
        if_pos hc
      have ha' : (State.callReadByte (r.tByte s.cfg) { s with host := hs }).append b =
          some { (s.callReadByte (r.tByte s.cfg)).push b with host := hs } := if_pos hc
      simp only [ha] at h
      simp only [ha']
      cases h
      exact congrArg _ (hd _ _ _)
    · simp [State.append, hc] at h

/-- A block step is the same whatever the host has still to do, and leaves that as it is. -/
theorem blockStep_host {s t : State} (h : blockStep s = .next t) (hs : List HostInput) :
    blockStep { s with host := hs } = .next { t with host := hs } := by
  obtain ⟨p, hp, hf⟩ := blockStep_starts h
  rw [blockStep_of_phase hp hf] at h
  rw [blockStep_of_phase (s := { s with host := hs }) (p := p) hp hf]
  cases p <;> simp only at h ⊢
  case idle | complete | failed => cases h; rfl
  case faDrive => cases h; rfl
  case faVerify =>
    unfold stepFaVerify at h ⊢
    dsimp only
    rw [pollIter_host]
    split at h <;> cases h <;> rfl
  case xmit =>
    unfold stepXmit at h ⊢
    simp only [State.readFrame, State.writeFrame] at h ⊢
    split at h
    · cases h
    · split at h
      · cases h
        unfold sendFrame
        split_ifs <;> first | rfl | contradiction
      · cases h
  case ackW1 =>
    unfold stepAckW1 at h ⊢
    rw [pollIter_host]
    dsimp only
    split at h <;> cases h
    · rfl
    · unfold endShortWait; split_ifs <;> first | rfl | contradiction
    · unfold endShortWait; split_ifs <;> first | rfl | contradiction
  case ackW2 =>
    unfold stepAckW2 at h ⊢
    rw [pollIter_host]
    split at h <;> cases h <;> rfl
  case read =>
    unfold stepRead at h ⊢
    dsimp only
    split at h
    · cases h
    · split_ifs at h ⊢ with h1 h2
      · refine readOne_host (fun b x hs => ?_) h hs
        unfold afterByteR
        split_ifs <;> rfl
      · refine readOne_host (fun b x hs => ?_) h hs
        by_cases hb : b = termByte <;> simp only [afterByteT, State.noteTerm, hb, if_true, if_false] <;> split_ifs <;>
          first | rfl | contradiction
  case deassert =>
    rcases stepDeassert_cases h with ⟨he, m, hm, rfl⟩ | ⟨he, rfl⟩
    · have hm' : matchAfter ((State.callSetLine .frame (!s.cfg.frameAssertLevel)
          { s with host := hs }).setFrameOut false) = some m := hm
      unfold stepDeassert State.settle
      dsimp only at hm' ⊢
      rw [if_pos he, hm']
      dsimp only
      split_ifs <;> first | rfl | contradiction
    · unfold stepDeassert State.settle
      dsimp only
      rw [if_neg he]
      split_ifs <;> first | rfl | contradiction

/-! ### One step of the machine -/

theorem step_of_no_input {s : State} (h : s.host = []) : step s = blockStep s := by
  simp [step, h]

theorem step_of_input {s : State} {i : HostInput} {rest : List HostInput} (h : s.host = i :: rest) :
    step s = hostSlot i { s with host := rest } := by
  simp [step, h]

/-- A presented word that decodes runs its form (R68, R75). -/
theorem presentWord_of_decode {s : State} {w : Word64} {i : Instr} (h : decode s.cfg.cap w = some i) :
    presentWord w s = exec i s := by
  simp [presentWord, h]

theorem presentWord_of_invalid {s : State} {w : Word64} (h : decode s.cfg.cap w = none) :
    presentWord w s = presentIllegal w s := by
  simp [presentWord, h]

/-- A presented word is always some `present`. -/
theorem presentWord_eq_present (w : Word64) (s : State) :
    ∃ r b0 legal, presentWord w s = present r b0 legal s := by
  cases h : decode s.cfg.cap w with
  | none => exact ⟨_, _, _, presentWord_of_invalid h⟩
  | some i => exact ⟨_, _, _, (presentWord_of_decode h).trans (exec_eq_present i s)⟩

/-- Everything a step can do when it answers a next state: a block step (with or without a host that
passes or waits), a request, a reset, a read, or the end of a wait. -/
theorem step_cases {s t : State} (h : step s = .next t) :
    (∃ rest, blockStep { s with host := rest } = .next t ∧
      (s.host = rest ∨ s.host = .idle :: rest)) ∨
    (∃ w rest r b0 legal, s.host = .request w :: rest ∧
      presentWord w { s with host := rest } = present r b0 legal { s with host := rest } ∧
      present r b0 legal { s with host := rest } = .next t) ∨
    (∃ rest, s.host = .reset :: rest ∧ t = resetEvent { s with host := rest }) ∨
    (∃ rest reply, (s.host = .readStatus :: rest ∨ ∃ i, s.host = .readResp i :: rest) ∧
      t = { s with host := rest, replies := s.replies ++ [reply] }) ∨
    (∃ rest p, s.host = .await :: rest ∧ s.phase = some p ∧ p.quiescent = true ∧
      t = { s with host := rest }) := by
  cases hh : s.host with
  | nil =>
    rw [step_of_no_input hh] at h
    have hs : { s with host := [] } = s := by rw [← hh]
    exact .inl ⟨[], by rw [hs]; exact h, .inl rfl⟩
  | cons i rest =>
    rw [step_of_input hh] at h
    cases i with
    | request w =>
      obtain ⟨r, b0, legal, hp⟩ := presentWord_eq_present w { s with host := rest }
      exact .inr (.inl ⟨w, rest, r, b0, legal, rfl, hp, hp ▸ h⟩)
    | reset => exact .inr (.inr (.inl ⟨rest, rfl, by simpa [hostSlot] using h.symm⟩))
    | readStatus =>
      exact .inr (.inr (.inr (.inl ⟨rest, _, .inl rfl, by simpa [hostSlot, hostReadStatus] using h.symm⟩)))
    | readResp j =>
      right; right; right; left
      simp only [hostSlot, hostReadResp] at h
      split at h
      · cases h
      · split at h
        · cases h
        · split at h
          · cases h
          · next b _ => exact ⟨rest, .resp j b, .inr ⟨j, rfl⟩, by simpa using h.symm⟩
    | idle => exact .inl ⟨rest, h, .inr rfl⟩
    | await =>
      simp only [hostSlot, hostAwait] at h
      split at h
      · cases h
      · next p hp =>
        split at h
        · next hq => exact .inr (.inr (.inr (.inr ⟨rest, p, rfl, hp, hq, by simpa using h.symm⟩)))
        · refine .inl ⟨.await :: rest, ?_, .inl rfl⟩
          exact h

/-- Everything a waiting host's step does while no reserved code stands: the end of the wait, or the block's
own step with the wait kept (R133). -/
theorem step_of_await {s : State} {p : Phase} {rest : List HostInput} (h : s.host = .await :: rest)
    (hp : s.phase = some p) :
    step s = if p.quiescent = true then .next { s with host := rest } else blockStep s := by
  have e : ({ ({ s with host := rest } : State) with host := .await :: rest } : State) = s := by rw [← h]
  rw [step_of_input h]
  simp only [hostSlot, hostAwait, e, hp]

end Sys2Proof.Machine
end

