-- ==== Sys2Proof/Laws/PerInstr.lean ====
section
/-! SUPPORT. The per-form family `RowMatch`: the word of a request form lies in its own row of the opcode
table, with the reserved field 0, and in no other row. -/

namespace Sys2Proof.Laws

/-- Mask and match of the row of spec/opcode_table.json a form stands for. -/
def RowMatch.row : Instr → Word64 × Word64
  | .execW _ _ _ _ _ _ _ => (0xFBFF000000000000#64, 0x0000000000000000#64)
  | .execR _ _ _ _ _ _ _ _ => (0xFB00000000000000#64, 0x0100000000000000#64)
  | .execT _ _ _ _ _ _ _ _ => (0xFB00000000000000#64, 0x0200000000000000#64)
  | .validate _ _ _ _ _ _ _ => (0xFBFF000000000000#64, 0x4101000000000000#64)

/-- The word of the form matches its row (R69), its reserved field is 0 (R64), and the row search of R68
finds the form again, with every operand. -/
def RowMatch.Statement (i : Instr) : Prop :=
  encode i &&& (RowMatch.row i).1 = (RowMatch.row i).2 ∧ fieldRsv (encode i) = 0#3 ∧
    decodeRow (encode i) = some i

theorem RowMatch.execW (policy : Policy) (base addr b0 opc arg1 arg2 : Byte) :
    RowMatch.Statement (.execW policy base addr b0 opc arg1 arg2) :=
  ⟨(mask_kind_mode_n _ kindExec modeW 0#8).mpr (by simp [encode]), by simp [encode],
    by simp [encode, decodeRow_eq]⟩

theorem RowMatch.execR (policy : Policy) (n base addr b0 opc arg1 arg2 : Byte) :
    RowMatch.Statement (.execR policy n base addr b0 opc arg1 arg2) :=
  ⟨(mask_kind_mode _ kindExec modeR).mpr (by simp [encode]), by simp [encode],
    by simp [encode, decodeRow_eq, kindExec, modeR, modeW]⟩

theorem RowMatch.execT (policy : Policy) (n base addr b0 opc arg1 arg2 : Byte) :
    RowMatch.Statement (.execT policy n base addr b0 opc arg1 arg2) :=
  ⟨(mask_kind_mode _ kindExec modeT).mpr (by simp [encode]), by simp [encode],
    by simp [encode, decodeRow_eq, kindExec, modeR, modeW, modeT]⟩

theorem RowMatch.validate (policy : Policy) (base addr b0 opc arg1 arg2 : Byte) :
    RowMatch.Statement (.validate policy base addr b0 opc arg1 arg2) :=
  ⟨(mask_kind_mode_n _ kindValidate modeR 1#8).mpr (by simp [encode]), by simp [encode],
    by simp [encode, decodeRow_eq, kindExec, kindValidate]⟩

end Sys2Proof.Laws
end

