-- ==== Sys2Proof/Laws/Run.lean ====
section
/-! SUPPORT. How runs compose. -/

namespace Sys2Proof.Machine

@[simp] theorem run_zero (s : State) : run 0 s = .next s := rfl

/-- A run whose first step is known. -/
theorem run_succ {s t : State} (k : Nat) (h : step s = .next t) : run (k + 1) s = run k t := by
  rw [run, h]

/-- A run of `j + k` steps whose first `j` steps are known. -/
theorem run_add {s t : State} (j k : Nat) (h : run j s = .next t) : run (j + k) s = run k t := by
  induction j generalizing s with
  | zero => cases h; rw [Nat.zero_add]
  | succ j ih =>
    rw [Nat.succ_add]
    rw [run] at h ⊢
    cases hs : step s with
    | next u => rw [hs] at h; exact ih h
    | fault r => rw [hs] at h; cases h
    | refused r => rw [hs] at h; cases h

/-- The steps of a run that has reached a state: none, or one and the rest. -/
theorem run_cases {s t : State} {k : Nat} (h : run k s = .next t) :
    (k = 0 ∧ t = s) ∨ ∃ j u, k = j + 1 ∧ step s = .next u ∧ run j u = .next t := by
  cases k with
  | zero => exact .inl ⟨rfl, by cases h; rfl⟩
  | succ k =>
    rw [run] at h
    cases hs : step s with
    | next u => exact .inr ⟨k, u, rfl, rfl, by rwa [hs] at h⟩
    | fault r => rw [hs] at h; cases h
    | refused r => rw [hs] at h; cases h

end Sys2Proof.Machine
end

