-- ==== Sys2Proof/Tests/Slice0.lean ====
section
/-! SUPPORT. Tests: the well-formedness checks on ill-formed terms, the words of the spec's encoding tables,
one-step checks against the vectors of spec/95_test_vectors.md, and a witness for the hypotheses of every
statement that has some. Expected values come from the spec, each named in its comment. -/

namespace Sys2Proof.Tests

open Sys2Proof.Machine

/-! ### Well-formedness: each check refuses a term that breaks it -/

theorem test_wf_execW_sum : (Instr.execW .default 0x10#8 0xF0#8 0#8 0#8 0#8 0#8).wf 40 = false := by decide
theorem test_wf_execR_count_zero : (Instr.execR .default 0#8 0#8 1#8 0#8 0#8 0#8 0#8).wf 40 = false := by decide
theorem test_wf_execR_count_above_cap : (Instr.execR .default 41#8 0#8 1#8 0#8 0#8 0#8 0#8).wf 40 = false := by
  decide
theorem test_wf_execR_sum : (Instr.execR .default 1#8 0xFF#8 1#8 0#8 0#8 0#8 0#8).wf 40 = false := by decide
theorem test_wf_execT_sum : (Instr.execT .default 0#8 0xFF#8 1#8 0#8 0#8 0#8 0#8).wf 40 = false := by decide
theorem test_wf_validate_sum : (Instr.validate .default 0xFF#8 1#8 0#8 0#8 0#8 0#8).wf 40 = false := by decide

/-! ### Decoding: words written out from the fields of R64 -/

/-- KIND 00, RSV 000, POLICY 0, MODE 00, N 0, BASE 0x10, ADDR 3, B0 0, OPC 0x11, ARG1 5, ARG2 0 (R80). -/
theorem test_decode_execW :
    decode 40 (0b00#2 ++ 0b000#3 ++ 0b0#1 ++ 0b00#2 ++ 0x00#8 ++ 0x10#8 ++ 0x03#8 ++ 0x00#8 ++ 0x11#8 ++ 0x05#8
      ++ 0x00#8) = some (.execW .default 0x10#8 3#8 0#8 0x11#8 5#8 0#8) := by decide
/-- R80's word, and V-A14 with `B0 = 0xEE`. -/
theorem test_decode_execW_word :
    decode 40 0x0000100300110500#64 = some (.execW .default 0x10#8 3#8 0#8 0x11#8 5#8 0#8) ∧
      decode 40 0x00001003EE110500#64 = some (.execW .default 0x10#8 3#8 0xEE#8 0x11#8 5#8 0#8) := by decide
/-- MODE 01, POLICY 1, N 40: the field positions of R64, at `N = CAP`. -/
theorem test_decode_execR :
    decode 40 (0b00#2 ++ 0b000#3 ++ 0b1#1 ++ 0b01#2 ++ 0x28#8 ++ 0x01#8 ++ 0x02#8 ++ 0x03#8 ++ 0x04#8 ++ 0x05#8
      ++ 0x06#8) = some (.execR .ackAware 40#8 1#8 2#8 3#8 4#8 5#8 6#8) := by decide
/-- V-R5 and the word of R81. -/
theorem test_decode_execR_word :
    decode 40 0x0128000100400000#64 = some (.execR .default 40#8 0#8 1#8 0#8 0x40#8 0#8 0#8) ∧
      decode 40 0x0102200200300000#64 = some (.execR .default 2#8 0x20#8 2#8 0#8 0x30#8 0#8 0#8) := by decide
/-- S4 and V-A15: `EXEC.T`, with `N = 0` and with an `N` that is ignored. -/
theorem test_decode_execT_word :
    decode 40 0x0200000100010000#64 = some (.execT .default 0#8 0#8 1#8 0#8 1#8 0#8 0#8) ∧
      decode 40 0x0207000100010000#64 = some (.execT .default 7#8 0#8 1#8 0#8 1#8 0#8 0#8) := by decide
/-- V-V1 and V-V6: `VALIDATE`, under either policy. -/
theorem test_decode_validate_word :
    decode 40 0x4101080500000000#64 = some (.validate .default 8#8 5#8 0#8 0#8 0#8 0#8) ∧
      decode 40 0x4501080500000000#64 = some (.validate .ackAware 8#8 5#8 0#8 0#8 0#8 0#8) := by decide
/-- V-A1 to V-A8: one word of each illegal class of R70, and `KIND = 11`. -/
theorem test_decode_illegal_classes :
    decode 40 0x8000000000000000#64 = none ∧ decode 40 0xC000000000000000#64 = none ∧
      decode 40 0x0800000100000000#64 = none ∧ decode 40 0x0300000100000000#64 = none ∧
      decode 40 0x0001000000000000#64 = none ∧ decode 40 0x0100000100000000#64 = none ∧
      decode 40 0x0129000100000000#64 = none ∧ decode 40 0x4102000000000000#64 = none ∧
      decode 40 0x4201000000000000#64 = none ∧ decode 40 0x000010F000000000#64 = none := by decide
/-- The sum at its limit: V-A9 is legal. -/
theorem test_decode_sum_255 :
    decode 40 0x00000FF000000000#64 = some (.execW .default 0x0F#8 0xF0#8 0#8 0#8 0#8 0#8) := by decide
/-- The opcode table's numbering of bits, through the decoder. -/
theorem test_decodeTableWord :
    decodeTableWord 64 0x0000100300110500 = some (.execW .default 0x10#8 3#8 0#8 0x11#8 5#8 0#8) := by decide
/-- R72: an assembler line and its word. -/
theorem test_assemble :
    assemble (.execT 1 0 1 0 0 { n := some 7 }) = some 0x0207000100010000#64 ∧
      assemble (.validate 5 8 0 0 0 { ackaware := true }) = some 0x4501080500000000#64 ∧
      assemble (.execW 3 0x10 0x11 5 0 { b0 := some 0xEE }) = some 0x00001003EE110500#64 ∧
      assemble (.execR 256 0 0 0 0 1 {}) = none := by decide

/-- R72: the lines of V-A14, V-A15, V-V6 and R81 as text; an operand too many has no word. -/
theorem test_assembleText :
    assembleText "EXEC.W 3,0x10,0x11,5,0, b0=0xEE" = some 0x00001003EE110500#64 ∧
      assembleText "EXEC.T 1,0,0x01,0,0, n=7" = some 0x0207000100010000#64 ∧
      assembleText "VALIDATE 5,0x08,0,0,0, ackaware" = some 0x4501080500000000#64 ∧
      assembleText "EXEC.R 2, 0x20, 0x30, 0, 0, 2" = some 0x0102200200300000#64 ∧
      assembleText "EXEC.W 1,0,0,0,0,0" = none := by decide
/-- P1's line of R73. -/
theorem test_parse_scan : parseLine "SCAN 0, 2, 0, 0x00, 0, 0".toList = some (.scan 0 2 0 0 0 0 false) := by decide
/-- P1's three `STATUS` words: the plate at address 1 is found, the others are not. -/
theorem test_scan_result :
    scanResult 0#8 2#8 [0x00000659#32, 0x00012108#32, 0x00000659#32] = [1#8] := by decide

/-! ### Small states, in the configuration CFG-X of R16 -/

/-- `CFG-X` (R16). -/
def cfgX : Params := ⟨0, true, 10, ⟨20, 20⟩, ⟨100, 100⟩, ⟨20, 20⟩, true⟩

/-- `CFG-X` with `P_NOACK_WRITE_VALID = 0` (V-K2). -/
def cfgStrict : Params := { cfgX with noackWriteValid := false }

/-- The state after reset with an environment and host slots. -/
def fresh (env : Env) (host : List HostInput) : State := { State.reset with cfg := cfgX, env := env, host := host }

/-- A state in the middle of a transaction of `r`, with the frame line driven as `out` says. -/
def busy (p : Phase) (r : Request) (out : Bool) (dl : Option Nat) (env : Env) : State :=
  { fresh env [] with st := p.code, req := some r, frame := frameCells r 0#8, frameOut := out, dl := dl }

/-- `busy` in `READ`, with the bytes already received. -/
def reading (r : Request) (saw : Bool) (bytes : List Byte) (env : Env) : State :=
  { busy .read r true none env with
    resp := (List.range bytes.length).zip bytes, count := BitVec.ofNat 16 bytes.length, sawTerm := saw }

def reqW : Request := ⟨0#2, .default, 0#2, 0#8, 0x10#8, 3#8, 0x11#8, 5#8, 0#8⟩
def reqR : Request := ⟨0#2, .default, 1#2, 2#8, 0#8, 1#8, 2#8, 0#8, 0#8⟩
def reqT : Request := ⟨0#2, .default, 2#2, 0#8, 0#8, 1#8, 1#8, 0#8, 0#8⟩
def reqV : Request := ⟨1#2, .default, 1#2, 1#8, 8#8, 5#8, 0#8, 0#8, 0#8⟩

/-- An environment whose acknowledge line reads as listed, one microsecond a clock read. -/
def acks (l : List Bool) : Env := { Env.free with ackLine := l, elapsed := [1, 1, 1, 1] }
/-- An environment with the given answers of the byte port. -/
def gives (l : List (Option Byte)) : Env := { Env.free with byte := l }
/-- An environment that lets a whole transaction pass. -/
def obliging (ackLine : List Bool) (bytes : List (Option Byte)) : Env :=
  ⟨[true], [true], ackLine, [true], bytes, []⟩

/-- `STATUS` after a step, where there is a next state. -/
def statusAfter (o : Result) : Option Word32 := match o with | .next t => some t.status | _ => none
/-- TRACE after a step, where there is a next state. -/
def traceAfter (o : Result) : Option (List Event) := match o with | .next t => some t.trace | _ => none

/-! ### One step against the vectors of spec/95_test_vectors.md -/

/-- V-A10: the transport is not ready. -/
theorem test_execW_bus_unavailable :
    statusAfter (exec (.execW .default 0x10#8 3#8 0#8 0x11#8 5#8 0#8) (fresh { Env.free with ready := [false] } []))
      = some 0x00000029#32 := by decide
/-- V-A14: the wire gets `0x13, 0x11, 0x05, 0x00`, whatever `B0` was. -/
theorem test_execW_sends_the_sum :
    traceAfter (step { busy .xmit reqW true none { Env.free with exchange := [true], elapsed := [1] } with
      frame := frameCells reqW 0xEE#8 }) =
      some [.exchange 0x13#8 0x11#8 0x05#8 0x00#8 true, .now 1] := by decide
/-- V-A6: `N = 41` is above `CAP = 40`; no port call. -/
theorem test_execR_above_cap :
    statusAfter (exec (.execR .default 41#8 0#8 1#8 0#8 0#8 0#8 0#8) (fresh Env.free [])) = some 0x00000019#32 ∧
      traceAfter (exec (.execR .default 41#8 0#8 1#8 0#8 0#8 0#8 0#8) (fresh Env.free [])) = some [] := by decide
/-- V-R2: the second read fails; `STATUS` two steps later would be `0x00010069`, here it is in `DEASSERT`. -/
theorem test_execR_truncated :
    statusAfter (step (reading reqR false [0x12#8] (gives [none]))) = some 0x00018067#32 := by decide
/-- V-T2: a trailing byte `0x00` ends the read: `COUNT = 2`, `SAW_TERM`, `DEASSERT`, frame line out. -/
theorem test_execT_trailing_zero :
    statusAfter (step (reading reqT true [0x00#8] (gives [some 0x00#8]))) = some 0x00029007#32 := by decide
/-- V-T6: the terminator fills the buffer: `BUFFER_OVERFLOW` with `SAW_TERM = 1` and `COUNT = 40`. -/
theorem test_execT_overflow :
    statusAfter (step (reading reqT false (List.replicate 39 0x41#8) (gives [some 0x00#8]))) =
      some 0x00289077#32 := by decide
/-- V-V1: the reported address is the assigned one. -/
theorem test_validate_match :
    statusAfter (step { reading reqV false [0x05#8] Env.free with st := 7#4 }) = some 0x00012108#32 := by decide
/-- V-V3: the plate reports `ADDR + BASE`, which is no match. -/
theorem test_validate_no_match :
    statusAfter (step { reading reqV false [0x0D#8] Env.free with st := 7#4 }) = some 0x00010108#32 := by decide

/-! ### Witnesses: a state and operands that meet the hypotheses of a statement, all together -/

theorem fresh_ready (env : Env) (host : List HostInput) : Ready (fresh env host) := ⟨.idle, rfl, rfl, rfl⟩

theorem fresh_inv (env : Env) (host : List HostInput) : Inv (fresh env host) :=
  ⟨⟨.idle, rfl, rfl, rfl, ⟨rfl, rfl, rfl, rfl⟩, rfl, rfl, rfl, rfl⟩, .inl rfl, rfl, Nat.zero_le _⟩

theorem witness_RequestMapRows :
    (0xFBFF000000000000#64, 0x4101000000000000#64) ∈ tableRows ∧
      0x4501080500000000#64 &&& 0xFBFF000000000000#64 = 0x4101000000000000#64 := by decide

theorem witness_IllegalWordsFailWithoutPortCall :
    Ready (fresh Env.free [.request 0x8000000000000000#64]) ∧
      (fresh Env.free [.request 0x8000000000000000#64]).host = .request 0x8000000000000000#64 :: [] ∧
      decode 40 0x8000000000000000#64 = none := ⟨fresh_ready _ _, rfl, by decide⟩

/-- Each form, with the count at 1 and at `CAP` and the sum at 255. -/
theorem witness_DecodeOfEncode :
    (Instr.execW .ackAware 0xFF#8 0#8 1#8 2#8 3#8 4#8).wf 40 = true ∧
      (Instr.execR .default 1#8 0x0F#8 0xF0#8 1#8 2#8 3#8 4#8).wf 40 = true ∧
      (Instr.execR .ackAware 40#8 0#8 0xFF#8 1#8 2#8 3#8 4#8).wf 40 = true ∧
      (Instr.execT .default 0xFF#8 0#8 0xFF#8 1#8 2#8 3#8 4#8).wf 40 = true ∧
      (Instr.validate .default 0xFF#8 0#8 1#8 2#8 3#8 4#8).wf 40 = true := by decide

theorem witness_EncodeOfDecode :
    decode 40 0x0128000100400000#64 = some (.execR .default 40#8 0#8 1#8 0#8 0x40#8 0#8 0#8) := by decide

theorem witness_DestinationIsTheExactSum :
    (Instr.execW .default 0x0F#8 0xF0#8 0#8 0#8 0#8 0#8).wf 40 = true := by decide

theorem witness_AssemblerLinesBuildTheirWords :
    (0#8 : Byte) = (none : Option Byte).getD 0#8 ∧ (0xEE#8 : Byte) = (some 0xEE#8).getD 0#8 := by decide

/-- The last address of a scan, and a scan whose range is empty; a wait in a busy state and in a quiescent one,
each with its next state. -/
theorem witness_ScanIsASequenceOfValidates :
    (0xFF#8 ∈ scanAddresses 0xFE#8 0xFF#8 ∧ (0xFF#8).toNat + (0#8).toNat ≤ 255 ∧
      scanAddresses 0x03#8 0x02#8 = []) ∧
    (let s : State := { busy .deassert reqW true none Env.free with host := [.await, .readStatus] }
     s.host = .await :: [.readStatus] ∧ s.phase = some .deassert ∧ Phase.deassert.quiescent = false ∧
       s.fault = false ∧ ∃ t, step s = .next t ∧ t.phase = some .complete ∧ t.host = s.host) ∧
    (let s := fresh Env.free [.await]
     s.host = .await :: [] ∧ s.phase = some .idle ∧ Phase.idle.quiescent = true ∧
       step s = .next (fresh Env.free [])) :=
  ⟨by decide, ⟨rfl, rfl, rfl, rfl, _, rfl, rfl, rfl⟩, ⟨rfl, rfl, rfl, rfl⟩⟩

theorem witness_ResetPutsEveryFieldAtItsResetValue :
    ({ busy .ackW1 reqW true (some 21) Env.free with fault := true, host := [.reset] } : State).host =
      .reset :: [] := rfl

theorem witness_StepRunsTheDecodedRequest :
    (fresh Env.free [.request 0x0000100300110500#64]).host = .request 0x0000100300110500#64 :: [] ∧
      decode (fresh Env.free []).cfg.cap 0x0000100300110500#64 =
        some (.execW .default 0x10#8 3#8 0#8 0x11#8 5#8 0#8) ∧
      decode (fresh Env.free []).cfg.cap (BitVec.ofNat 64 (0x0000100300110500 % 2 ^ 64)) =
        some (.execW .default 0x10#8 3#8 0#8 0x11#8 5#8 0#8) := by decide

/-- A legal word and an illegal one, and an acceptance that finds the transport not ready. -/
theorem witness_AcceptanceOfAnyWord :
    (Ready (fresh Env.free [.request 0x0400100300110500#64]) ∧
      (fresh Env.free [.request 0x0400100300110500#64]).host = .request 0x0400100300110500#64 :: []) ∧
    (Ready (fresh Env.free [.request 0x8000000000000000#64]) ∧
      (fresh Env.free [.request 0x8000000000000000#64]).host = .request 0x8000000000000000#64 :: []) ∧
    ∃ t, step (fresh { Env.free with ready := [false] } [.request 0x0000100300110500#64]) = .next t ∧ t.err = 2#4 :=
  ⟨⟨fresh_ready _ _, rfl⟩, ⟨fresh_ready _ _, rfl⟩, _, rfl, rfl⟩

/-- Ready states: after reset, after a success and after a failure. -/
theorem witness_ExecWIsAccepted :
    Ready (fresh Env.free []) ∧ Ready { busy .complete reqW false none Env.free with valid := true } ∧
      Ready { busy .failed reqR false none Env.free with err := 6#4 } :=
  ⟨fresh_ready _ _, ⟨.complete, rfl, rfl, rfl⟩, ⟨.failed, rfl, rfl, rfl⟩⟩

theorem witness_ExecRIsAccepted : Ready (fresh { Env.free with ready := [true] } []) := fresh_ready _ _
theorem witness_ExecTIsAccepted : Ready (fresh { Env.free with ready := [false] } []) := fresh_ready _ _
theorem witness_ValidateIsAccepted : Ready (fresh (acks [false]) []) := fresh_ready _ _

/-- V-Z1: `VALIDATE` presented in `ACK_W1`; and the faulted state after it, with each kind of host. -/
theorem witness_BusyRequestIsAModelFault :
    let s (h : List HostInput) : State := { busy .ackW1 reqW true (some 21) Env.free with host := h }
    let t (h : List HostInput) : State := { s h with fault := true }
    (let h : List HostInput := [.request 0x4101000100000000#64]
     (s h).phase = some .ackW1 ∧ Phase.ackW1.quiescent = false ∧ (s h).fault = false ∧
      (s h).host = .request 0x4101000100000000#64 :: []) ∧
    ∀ h, (t h).phase = some .ackW1 ∧ (t h).fault = true ∧ (t h).host = h :=
  ⟨⟨rfl, rfl, rfl, rfl⟩, fun _ => ⟨rfl, rfl, rfl⟩⟩

/-- V-Z1 for the setting of `FAULT`, V-Z2 for its clearing, and a read of `STATUS` in between. -/
theorem witness_FaultStandsUntilReset :
    let s : State := { busy .ackW1 reqW true (some 21) Env.free with host := [.request 0x4101000100000000#64] }
    let f : State := { s with fault := true, host := [.readStatus, .reset] }
    (step s = .next { s with host := [], fault := true } ∧ s.fault = false) ∧
    (∃ t, step f = .next t ∧ f.fault = true ∧ t.fault = true) ∧
    ∃ t, step { f with host := [.reset] } = .next t ∧ t.fault = false :=
  ⟨⟨rfl, rfl⟩, ⟨_, rfl, rfl, rfl⟩, ⟨_, rfl, rfl⟩⟩

/-- The least and the greatest reserved code of `ST` and of `ERR`, and a next state for the first clause. -/
theorem witness_ReservedStateIsAModelFault :
    8 ≤ ({ fresh Env.free [] with err := 8#4 } : State).err.toNat ∧
      8 ≤ ({ fresh Env.free [] with err := 15#4 } : State).err.toNat ∧
    10 ≤ ({ fresh Env.free [] with st := 10#4 } : State).st.toNat ∧
      10 ≤ ({ fresh Env.free [] with st := 15#4 } : State).st.toNat ∧
      (fresh Env.free []).host = [] ∧ (fresh Env.free [.idle]).host = .idle :: [] ∧
      (fresh Env.free [.request 0#64]).host = .request 0#64 :: [] ∧
      step (fresh Env.free []) = .next (fresh Env.free []) :=
  ⟨by decide, by decide, by decide, by decide, rfl, rfl, rfl, rfl⟩

/-- A state after reset and one after a failed read that had received two bytes. -/
theorem witness_AcceptanceForgetsTheLastTransaction :
    let s := fresh (obliging [] []) []
    let s' : State := { reading reqR false [1#8, 2#8] (obliging [] []) with st := 9#4, err := 6#4, frameOut := false }
    Ready s ∧ Ready s' ∧ s.frame = [] ∧ s'.frame.map Prod.fst = [0, 1, 2, 3] ∧ s.cfg = s'.cfg ∧ s.env = s'.env ∧
      s.trace = s'.trace ∧ s.frameOut = s'.frameOut ∧ s.host = s'.host ∧ s.replies = s'.replies :=
  ⟨fresh_ready _ _, ⟨.failed, rfl, rfl, rfl⟩, rfl, rfl, rfl, rfl, rfl, rfl, rfl, rfl⟩

theorem witness_FaDriveAssertsTheFrameLine : BlockIn .faDrive (busy .faDrive reqW false none (acks [])) :=
  ⟨rfl, rfl, rfl⟩

/-- A readback that is asserted at the deadline, one that is not asserted at it, and one before it (V-F1 to
V-F3: the sample is `s`'s last clock answer plus 1). -/
theorem witness_FaVerifyPollsTheReadback :
    let s (d : Nat) (v : Bool) := busy .faVerify reqW true (some d) { Env.free with frameLine := [v], elapsed := [1] }
    (BlockIn .faVerify (s 1 true) ∧ (s 1 true).dl = some 1) ∧ (BlockIn .faVerify (s 1 false) ∧ secondNow (s 1 false) = 1) ∧
      (BlockIn .faVerify (s 2 false) ∧ secondNow (s 2 false) < 2) :=
  ⟨⟨⟨rfl, rfl, rfl⟩, rfl⟩, ⟨⟨rfl, rfl, rfl⟩, rfl⟩, ⟨⟨rfl, rfl, rfl⟩, by decide⟩⟩

/-- Either answer of the exchange, with a sum above 255 as well. -/
theorem witness_XmitSendsTheFrame :
    let s (ok : Bool) := busy .xmit reqW true none { Env.free with exchange := [ok] }
    (∀ ok, BlockIn .xmit (s ok) ∧ (s ok).req = some reqW ∧ (s ok).frame.read 1 = some 0x11#8 ∧
      (s ok).frame.read 2 = some 5#8 ∧ (s ok).frame.read 3 = some 0#8) ∧
    BlockIn .xmit (busy .xmit { reqW with addr := 0xF0#8 } true none Env.free) :=
  ⟨fun _ => ⟨⟨rfl, rfl, rfl⟩, rfl, rfl, rfl, rfl⟩, ⟨rfl, rfl, rfl⟩⟩

/-- A hit and a timeout at the deadline and a miss before it, in mode `W` and in mode `R`. -/
theorem witness_AckW1WaitsShort :
    let s (r : Request) (d : Nat) (v : Bool) := busy .ackW1 r true (some d) (acks [v])
    (∀ r d v, BlockIn .ackW1 (s r d v) ∧ (s r d v).req = some r ∧ (s r d v).dl = some d) ∧
      secondNow (s reqW 1 true) = 1 ∧ secondNow (s reqR 2 true) < 2 ∧ reqW.mode = 0#2 ∧ reqR.mode ≠ 0#2 :=
  ⟨fun _ _ _ => ⟨⟨rfl, rfl, rfl⟩, rfl, rfl⟩, by decide, by decide, by decide, by decide⟩

theorem witness_AckW2WaitsLong :
    let s (d : Nat) (v : Bool) := busy .ackW2 reqR true (some d) (acks [v])
    (∀ d v, BlockIn .ackW2 (s d v) ∧ (s d v).dl = some d) ∧ secondNow (s 1 true) = 1 ∧ secondNow (s 2 true) < 2 :=
  ⟨fun _ _ => ⟨⟨rfl, rfl, rfl⟩, rfl⟩, by decide, by decide⟩

/-- A byte that is the last, one that is not, and a failed read. -/
theorem witness_ReadFixedCountStep :
    let s (l : List Byte) (a : Option Byte) := reading reqR false l (gives [a])
    (BlockIn .read (s [1#8] (some 2#8)) ∧ (s [1#8] (some 2#8)).req = some reqR ∧ reqR.mode = 1#2 ∧
      (s [1#8] (some 2#8)).count.toNat < (s [1#8] (some 2#8)).cfg.cap) ∧
    (BlockIn .read (s [] (some 2#8)) ∧ (s [] (some 2#8)).count.toNat + 1 ≠ reqR.n.toNat) ∧
    BlockIn .read (s [] none) :=
  ⟨⟨⟨rfl, rfl, rfl⟩, rfl, rfl, by decide⟩, ⟨⟨rfl, rfl, rfl⟩, by decide⟩, ⟨rfl, rfl, rfl⟩⟩

/-- The trailing byte; a byte that fills the buffer (`COUNT = 39`); a failed read. -/
theorem witness_ReadTerminatorStep :
    let s (saw : Bool) (l : List Byte) (a : Option Byte) := reading reqT saw l (gives [a])
    (BlockIn .read (s true [0#8] (some 2#8)) ∧ (s true [0#8] (some 2#8)).req = some reqT ∧ reqT.mode = 2#2 ∧
      (s true [0#8] (some 2#8)).count.toNat < (s true [0#8] (some 2#8)).cfg.cap) ∧
    (BlockIn .read (s false (List.replicate 39 1#8) (some 0#8)) ∧
      (s false (List.replicate 39 1#8) (some 0#8)).count.toNat + 1 = cfgX.cap) ∧
    BlockIn .read (s false [] none) :=
  ⟨⟨⟨rfl, rfl, rfl⟩, rfl, rfl, by decide⟩, ⟨⟨rfl, rfl, rfl⟩, by decide⟩, ⟨rfl, rfl, rfl⟩⟩

/-- A `VALIDATE` that received its byte, an `EXEC.W`, and a failed `VALIDATE` that received none. -/
theorem witness_DeassertSettlesTheResult :
    (let s : State := { reading reqV false [5#8] Env.free with st := 7#4 }
     BlockIn .deassert s ∧ s.req = some reqV ∧ s.err = 0#4 ∧ s.resp.read 0 = some 5#8) ∧
    (let s := busy .deassert reqW true none Env.free
     BlockIn .deassert s ∧ s.req = some reqW ∧ s.err = 0#4 ∧ reqW.kind ≠ 1#2) ∧
    (let s : State := { busy .deassert reqV true none Env.free with err := 5#4 }
     BlockIn .deassert s ∧ s.req = some reqV ∧ s.err ≠ 0#4 ∧ s.resp.read 0 = none) :=
  ⟨⟨⟨rfl, rfl, rfl⟩, rfl, rfl, rfl⟩, ⟨⟨rfl, rfl, rfl⟩, rfl, rfl, by decide⟩,
    ⟨⟨rfl, rfl, rfl⟩, rfl, by decide, rfl⟩⟩

/-! Witnesses that need the invariant. -/

theorem legalW : RequestLegal cfgX reqW := ⟨by decide, .inl ⟨rfl, rfl, rfl⟩⟩
theorem legalR : RequestLegal cfgX reqR := ⟨by decide, .inr (.inl ⟨rfl, rfl, by decide, by decide⟩)⟩
theorem legalT : RequestLegal cfgX reqT := ⟨by decide, .inr (.inr (.inl ⟨rfl, rfl⟩))⟩

theorem inv_xmit {r : Request} (h : RequestLegal cfgX r) (env : Env) : Inv (busy .xmit r true none env) :=
  ⟨⟨.xmit, rfl, r, ⟨rfl, h, ⟨_, rfl⟩, rfl, rfl, rfl⟩, ⟨rfl, rfl, rfl, rfl⟩, rfl⟩, .inr rfl, rfl, Nat.zero_le _⟩

theorem inv_ackW1 {r : Request} (h : RequestLegal cfgX r) (d : Nat) (env : Env) :
    Inv (busy .ackW1 r true (some d) env) :=
  ⟨⟨.ackW1, rfl, r, ⟨rfl, h, ⟨_, rfl⟩, rfl, rfl, rfl⟩, ⟨rfl, rfl, rfl, rfl⟩, rfl, d, rfl⟩, .inr rfl, rfl,
    Nat.zero_le _⟩

theorem inv_ackW2 {r : Request} (h : RequestLegal cfgX r) (hm : r.mode ≠ modeW) (d : Nat) (env : Env) :
    Inv (busy .ackW2 r true (some d) env) :=
  ⟨⟨.ackW2, rfl, r, ⟨rfl, h, ⟨_, rfl⟩, rfl, rfl, rfl⟩, ⟨rfl, rfl, rfl, rfl⟩, hm, d, rfl⟩, .inr rfl, rfl,
    Nat.zero_le _⟩

theorem inv_readR (env : Env) : Inv (reading reqR false [0x12#8] env) :=
  ⟨⟨.read, rfl, reqR, ⟨rfl, legalR, ⟨_, rfl⟩, rfl, rfl, rfl⟩, rfl, rfl, .inl ⟨rfl, Nat.lt_succ_self 1, rfl⟩⟩, .inr rfl, rfl,
    Nat.le_add_left 1 39⟩

/-- Two bytes are in the buffer and the last of them is the first terminator. -/
theorem inv_readT_trailing (env : Env) : Inv (reading reqT true [0x41#8, 0x00#8] env) :=
  ⟨⟨.read, rfl, reqT, ⟨rfl, legalT, ⟨_, rfl⟩, rfl, rfl, rfl⟩, rfl, rfl,
    .inr (.inr ⟨rfl, show 2 < cfgX.cap by decide, rfl, Nat.le_add_left 1 1, rfl, fun i hi => by
      have h : i < 1 := hi
      obtain rfl : i = 0 := by omega
      exact fun h => absurd (Option.some.inj h) (by decide)⟩)⟩, .inr rfl, rfl, show 2 ≤ cfgX.cap by decide⟩

theorem witness_OnlyTheTransitionsOfTheTable :
    Inv (busy .xmit reqW true none { Env.free with exchange := [true] }) ∧
      ∃ t, step (busy .xmit reqW true none { Env.free with exchange := [true] }) = .next t :=
  ⟨inv_xmit legalW _, _, rfl⟩

/-- Four of the failures: readback, exchange, acknowledge, byte read. -/
theorem witness_FailureEntryAndReturn :
    let s1 := busy .faVerify reqW true (some 0) { Env.free with frameLine := [false] }
    let s2 := busy .xmit reqW true none { Env.free with exchange := [false] }
    let s3 := busy .ackW2 reqR true (some 0) (acks [true])
    let s4 := reading reqR false [] (gives [none])
    (s1.host = [] ∧ s1.err = 0#4 ∧ ∃ t, step s1 = .next t ∧ t.err = 3#4) ∧
    (s2.host = [] ∧ s2.err = 0#4 ∧ ∃ t, step s2 = .next t ∧ t.err = 4#4) ∧
    (s3.host = [] ∧ s3.err = 0#4 ∧ ∃ t, step s3 = .next t ∧ t.err = 5#4) ∧
    (s4.host = [] ∧ s4.err = 0#4 ∧ ∃ t, step s4 = .next t ∧ t.err = 6#4) :=
  ⟨⟨rfl, rfl, _, rfl, rfl⟩, ⟨rfl, rfl, _, rfl, rfl⟩, ⟨rfl, rfl, _, rfl, rfl⟩, ⟨rfl, rfl, _, rfl, rfl⟩⟩

/-- V-K1 and, with `cfgStrict`, V-K2: the last sample of the short wait is at the deadline. -/
theorem witness_NoAcknowledgeInModeW :
    let s := busy .ackW1 reqW true (some 1) (acks [true])
    let s' : State := { s with cfg := cfgStrict }
    (Inv s ∧ BlockIn .ackW1 s ∧ s.req = some reqW ∧ reqW.mode = 0#2 ∧ s.dl = some 1 ∧
      s.env.ackLine.headD (Config.freeLine s.trace.length .ack) = true ∧ 1 ≤ secondNow s) ∧
    (Inv s' ∧ BlockIn .ackW1 s' ∧ s'.cfg.noackWriteValid = false ∧ 1 ≤ secondNow s') :=
  ⟨⟨inv_ackW1 legalW 1 _, ⟨rfl, rfl, rfl⟩, rfl, rfl, rfl, rfl, by decide⟩,
    ⟨⟨⟨.ackW1, rfl, reqW, ⟨rfl, ⟨by decide, .inl ⟨rfl, rfl, rfl⟩⟩, ⟨_, rfl⟩, rfl, rfl, rfl⟩, ⟨rfl, rfl, rfl, rfl⟩,
      rfl, 1, rfl⟩, .inr rfl, rfl, Nat.zero_le _⟩, ⟨rfl, rfl, rfl⟩, rfl, by decide⟩⟩

theorem witness_NoAcknowledgeInReadModes :
    let s := busy .ackW2 reqR true (some 1) (acks [true])
    Inv s ∧ BlockIn .ackW2 s ∧ s.dl = some 1 ∧
      s.env.ackLine.headD (Config.freeLine s.trace.length .ack) = true ∧ 1 ≤ secondNow s :=
  ⟨inv_ackW2 legalR (by decide) 1 _, ⟨rfl, rfl, rfl⟩, rfl, rfl, by decide⟩

/-- V-R2, and V-T3 for mode `T`. -/
theorem witness_FailedReadTruncates :
    (Inv (reading reqR false [0x12#8] (gives [none])) ∧ BlockIn .read (reading reqR false [0x12#8] (gives [none]))) ∧
    (Inv (reading reqT true [0x41#8, 0x00#8] (gives [none])) ∧
      BlockIn .read (reading reqT true [0x41#8, 0x00#8] (gives [none]))) ∧
    (gives [none]).byte.headD (Config.freeByte 0) = none :=
  ⟨⟨inv_readR _, rfl, rfl, rfl⟩, ⟨inv_readT_trailing _, rfl, rfl, rfl⟩, rfl⟩

/-- V-T6 and V-T8: 39 bytes are in the buffer and the fortieth comes, a terminator or not. -/
theorem witness_UnfinishedFullBufferOverflows :
    let s (b : Byte) := reading reqT false (List.replicate 39 0x41#8) (gives [some b])
    ∀ b, BlockIn .read (s b) ∧ (s b).req = some reqT ∧ reqT.mode = 2#2 ∧ (s b).sawTerm = false ∧
      (s b).count.toNat + 1 = (s b).cfg.cap ∧
      (s b).env.byte.headD (Config.freeByte (s b).trace.length) = some b :=
  fun _ => ⟨⟨rfl, rfl, rfl⟩, rfl, rfl, rfl, rfl, rfl⟩

theorem witness_TrailingByteIsNotExamined :
    let s := reading reqT true [0x41#8, 0x00#8] (gives [some 0x00#8])
    Inv s ∧ BlockIn .read s ∧ s.req = some reqT ∧ reqT.mode = 2#2 ∧ s.sawTerm = true ∧
      s.env.byte = some 0x00#8 :: [] := ⟨inv_readT_trailing _, ⟨rfl, rfl, rfl⟩, rfl, rfl, rfl, rfl⟩

/-- A read of `STATUS` after a truncated read. -/
theorem witness_ResultIsFinalWhenQuiescent :
    let s : State := { reading reqR false [0x12#8] Env.free with st := 9#4, err := 6#4, frameOut := false, host := [.readStatus] }
    s.phase = some .failed ∧ Phase.failed.quiescent = true ∧ (∀ w rest, s.host ≠ .request w :: rest) ∧
      (∀ rest, s.host ≠ .reset :: rest) ∧ ∃ t, step s = .next t :=
  ⟨rfl, rfl, fun _ _ h => absurd h (by simp), fun _ h => absurd h (by simp), _, rfl⟩

theorem fresh_cooperates_default : Cooperates .default false 1 (fresh (obliging [false] []) []) :=
  ⟨⟨[], rfl⟩, ⟨[], rfl⟩, ⟨[], rfl⟩, ⟨[], rfl⟩⟩

theorem fresh_cooperates_ackAware (pre : Bool) (bytes : List (Option Byte)) :
    Cooperates .ackAware pre 2 (fresh (obliging [pre, false, false] bytes) []) :=
  ⟨⟨[], rfl⟩, ⟨[], rfl⟩, ⟨[], rfl⟩, ⟨[], rfl⟩⟩

/-- The sum is at its limit, 255. -/
theorem witness_ExecWCompletes :
    let s := fresh (obliging [false] []) []
    Ready s ∧ s.host = [] ∧ s.frame = [] ∧ (0xF0#8).toNat + (0x0F#8).toNat ≤ 255 ∧ Cooperates .default false 1 s :=
  ⟨fresh_ready _ _, rfl, rfl, by decide, fresh_cooperates_default⟩

/-- The count at `CAP`, and at 1. -/
theorem witness_ExecRCompletes :
    (let s := fresh (obliging [true, false, false] ((List.replicate 40 0x7E#8).map some ++ [none])) []
     Ready s ∧ s.host = [] ∧ s.frame = [] ∧ (1#8).toNat + (0#8).toNat ≤ 255 ∧
       (List.replicate 40 0x7E#8).length = (40#8).toNat ∧ 1 ≤ (40#8).toNat ∧ (40#8).toNat ≤ s.cfg.cap ∧
       Cooperates .ackAware true 2 s ∧ s.env.byte = (List.replicate 40 0x7E#8).map some ++ [none]) ∧
    (let s := fresh (obliging [true, false, false] [some 1#8]) []
     Ready s ∧ [1#8].length = (1#8).toNat ∧ Cooperates .ackAware true 2 s ∧ s.env.byte = [1#8].map some ++ []) :=
  ⟨⟨fresh_ready _ _, rfl, rfl, by decide, rfl, by decide, by decide, fresh_cooperates_ackAware _ _, rfl⟩,
    ⟨fresh_ready _ _, rfl, fresh_cooperates_ackAware _ _, rfl⟩⟩

/-- V-T1 (the terminator first) and V-T7 (the read fills the buffer exactly). -/
theorem witness_ExecTCompletes :
    let s (s0 : List Byte) := fresh (obliging [false, false, false] ((s0 ++ [0#8, 3#8]).map some ++ [none])) []
    ∀ s0 ∈ [[], List.replicate 38 0x41#8], Ready (s s0) ∧ (s s0).host = [] ∧ (s s0).frame = [] ∧
      (1#8).toNat + (0#8).toNat ≤ 255 ∧ 0#8 ∉ s0 ∧ s0.length + 2 ≤ (s s0).cfg.cap ∧
      Cooperates .ackAware false 2 (s s0) ∧ (s s0).env.byte = (s0 ++ [0#8, 3#8]).map some ++ [none] := by
  intro s s0 h
  refine ⟨fresh_ready _ _, rfl, rfl, by decide, ?_, ?_, fresh_cooperates_ackAware _ _, rfl⟩
  · revert s0; decide
  · show s0.length + 2 ≤ cfgX.cap
    revert s0; decide

theorem witness_ValidateCompletes :
    let s := fresh (obliging [true, false, false] [some 5#8]) []
    Ready s ∧ s.host = [] ∧ s.frame = [] ∧ (5#8).toNat + (8#8).toNat ≤ 255 ∧ Cooperates .ackAware true 2 s ∧
      s.env.byte = some 5#8 :: [] :=
  ⟨fresh_ready _ _, rfl, rfl, by decide, fresh_cooperates_ackAware _ _, rfl⟩

/-- S3: two bytes and then `Err`, with `N = 2` and with `N = 3`; and the mode `W` case. -/
theorem witness_FixedCountTermination :
    (∀ n : Byte, n = 2#8 ∨ n = 3#8 →
      let r := { reqR with n := n }
      let s := busy .ackW2 r true (some 9)
        { acks [false] with byte := [0x12#8, 0x34#8].map some ++ none :: [] }
      Inv s ∧ BlockIn .ackW2 s ∧ s.req = some r ∧ r.kind = 0#2 ∧ r.mode = 1#2 ∧
        s.env.ackLine.headD (Config.freeLine s.trace.length .ack) = false ∧
        s.env.byte = [0x12#8, 0x34#8].map some ++ none :: []) ∧
    (let s := busy .ackW1 reqW true (some 9) (acks [false])
     Inv s ∧ BlockIn .ackW1 s ∧ s.req = some reqW ∧ reqW.mode = 0#2 ∧
       s.env.ackLine.headD (Config.freeLine s.trace.length .ack) = false) := by
  refine ⟨fun n hn => ⟨inv_ackW2 ?_ (show (1#2 : BitVec 2) ≠ 0#2 by decide) 9 _, ⟨rfl, rfl, rfl⟩, rfl, rfl, rfl, rfl, rfl⟩,
    ⟨inv_ackW1 legalW 9 _, ⟨rfl, rfl, rfl⟩, rfl, rfl, rfl⟩⟩
  rcases hn with rfl | rfl <;>
    exact ⟨by decide, .inr (.inl ⟨rfl, rfl, by decide, by decide⟩)⟩

/-- S4's stream, and a stream that fills the buffer (V-T7). -/
theorem witness_TerminatorLaw :
    let s (s0 : List Byte) := busy .ackW2 reqT true (some 9)
      { acks [false] with byte := (s0 ++ [0#8, 5#8]).map some ++ [] }
    ∀ s0 ∈ [[0x41#8, 0x42#8], List.replicate 38 0x41#8], Inv (s s0) ∧ BlockIn .ackW2 (s s0) ∧
      (s s0).req = some reqT ∧ reqT.mode = 2#2 ∧
      (s s0).env.ackLine.headD (Config.freeLine (s s0).trace.length .ack) = false ∧ 0#8 ∉ s0 ∧
      s0.length + 2 ≤ (s s0).cfg.cap ∧ (s s0).env.byte = (s0 ++ [0#8, 5#8]).map some ++ [] := by
  intro s s0 h
  refine ⟨inv_ackW2 legalT (by decide) 9 _, ⟨rfl, rfl, rfl⟩, rfl, rfl, rfl, ?_, ?_, rfl⟩
  · revert s0; decide
  · show s0.length + 2 ≤ cfgX.cap
    revert s0; decide

theorem witness_ReadingEnds :
    let s := reading reqR false [0x12#8] Env.free
    Inv s ∧ BlockIn .read s ∧ s.req = some reqR := ⟨inv_readR _, ⟨rfl, rfl, rfl⟩, rfl⟩

/-- Both kinds of poll, and a sample at the deadline and one before it. -/
theorem witness_PollGoesOnOnlyBeforeItsDeadline :
    let a (d : Nat) := busy .faVerify reqW true (some d) { Env.free with frameLine := [false], elapsed := [1] }
    let b (d : Nat) := busy .ackW2 reqR true (some d) (acks [true])
    (∀ d, (a d).host = [] ∧ (a d).dl = some d ∧ (a d).phase = some .faVerify ∧ (a d).cfg.frameAssertLevel = true) ∧
    (∃ t, step (a 1) = .next t ∧ t.phase = some .deassert) ∧ (∃ t, step (a 2) = .next t ∧ t.phase = some .faVerify) ∧
    (∀ d, (b d).host = [] ∧ (b d).dl = some d ∧ (b d).phase = some .ackW2) ∧
    (∃ t, step (b 1) = .next t ∧ t.phase = some .deassert) ∧ (∃ t, step (b 2) = .next t ∧ t.phase = some .ackW2) :=
  ⟨fun _ => ⟨rfl, rfl, rfl, rfl⟩, ⟨_, rfl, rfl⟩, ⟨_, rfl, rfl⟩, fun _ => ⟨rfl, rfl, rfl⟩, ⟨_, rfl, rfl⟩, ⟨_, rfl, rfl⟩⟩

/-- The clock reaches the deadline with the third sample, and, with no sample needed, it has passed it. The same
states are polls that end because the clock is fair. -/
theorem witness_PollEndsWithTheClock :
    let s (d : Nat) := busy .ackW1 reqW true (some d) (acks [true, true, true])
    (Inv (s 3) ∧ BlockIn .ackW1 (s 3) ∧ (s 3).dl = some 3 ∧ (s 3).env.elapsed = [1, 1, 1] ++ [1] ∧
      3 ≤ lastNow (s 3).trace + ([1, 1, 1] : List Nat).sum) ∧
    (Inv (s 0) ∧ BlockIn .ackW1 (s 0) ∧ (s 0).env.elapsed = [] ++ [1, 1, 1, 1] ∧
      0 ≤ lastNow (s 0).trace + ([] : List Nat).sum) :=
  ⟨⟨inv_ackW1 legalW 3 _, ⟨rfl, rfl, rfl⟩, rfl, rfl, by decide⟩, ⟨inv_ackW1 legalW 0 _, ⟨rfl, rfl, rfl⟩, rfl, by decide⟩⟩

/-- V-K3's shape: the acknowledge line stays high through both waits, and the run ends in `FAILED`. -/
theorem witness_AckTimeoutDegradesGracefully :
    let s := busy .xmit reqR true none
      { Env.free with exchange := [true], ackLine := [true, true], elapsed := [1, 20, 100] }
    Inv s ∧ BlockIn .xmit s ∧ s.req = some reqR ∧ reqR.mode ≠ 0#2 ∧
      ∃ t evs, run 4 s = .next t ∧ t.trace = s.trace ++ evs ∧ .readLine .ack false ∉ evs ∧
        (∀ b0 b1 b2 b3, .exchange b0 b1 b2 b3 false ∉ evs) ∧ t.phase = some .failed ∧
        Phase.failed.quiescent = true := by
  refine ⟨inv_xmit legalR _, ⟨rfl, rfl, rfl⟩, rfl, by decide, _,
    [.exchange 1#8 2#8 0#8 0#8 true, .now 1, .readLine .ack true, .now 21, .readLine .ack true, .now 121,
      .setLine .frame false], rfl, rfl, by decide, ?_, rfl, rfl⟩
  intro b0 b1 b2 b3
  simp

/-- In mode `W` and before the end of a wait: a run of one step. -/
theorem witness_AckTimeoutDegradesGracefully_begun :
    let s := busy .xmit reqR true none { Env.free with exchange := [true], elapsed := [1] }
    Inv s ∧ BlockIn .xmit s ∧ s.req = some reqR ∧
      ∃ t evs, run 1 s = .next t ∧ t.trace = s.trace ++ evs ∧ .readLine .ack false ∉ evs ∧
        ∀ b0 b1 b2 b3, .exchange b0 b1 b2 b3 false ∉ evs := by
  refine ⟨inv_xmit legalR _, ⟨rfl, rfl, rfl⟩, rfl, _, [.exchange 1#8 2#8 0#8 0#8 true, .now 1], rfl, rfl, by decide, ?_⟩
  intro b0 b1 b2 b3
  simp

theorem witness_EveryStepKeepsInvariant :
    Inv (busy .ackW1 reqR true (some 9) (acks [false])) ∧
      ∃ t, step (busy .ackW1 reqR true (some 9) (acks [false])) = .next t :=
  ⟨inv_ackW1 legalR 9 _, _, rfl⟩

/-- A request in a quiescent state, and a read of the last byte received. -/
theorem witness_OnlyTheHostCanCauseAModelFault :
    (let s := fresh Env.free [.request 0#64]
     Inv s ∧ s.fault = false ∧ HostKeepsDuty s) ∧
    (let s : State := { reading reqR false [0x12#8] Env.free with host := [.readResp 0] }
     Inv s ∧ s.fault = false ∧ HostKeepsDuty s) := by
  refine ⟨⟨fresh_inv _ _, rfl, fun _ _ _ => ⟨.idle, rfl, rfl⟩, fun _ _ h => ?_⟩,
    ⟨⟨.read, rfl, reqR, ⟨rfl, legalR, ⟨_, rfl⟩, rfl, rfl, rfl⟩, rfl, rfl, .inl ⟨rfl, by decide, rfl⟩⟩, .inr rfl, rfl,
      by decide⟩, rfl, fun _ _ h => ?_, fun i _ h => ?_⟩
  · exact absurd h (by simp [fresh])
  · exact absurd h (by simp)
  · have : i = 0 := by
      have := congrArg List.head? h
      simpa using this.symm
    subst this
    exact Nat.lt_succ_self 0

/-- A state with one assert and no deassert so far. -/
theorem witness_EveryStepKeepsFrameBalance :
    let s : State := { busy .deassert reqW true none Env.free with trace := [.setLine .frame true] }
    FrameBalance s ∧ ¬ResetWhileBusy s ∧ ∃ t, step s = .next t :=
  ⟨⟨.deassert, rfl, by decide⟩, by rintro ⟨_, _, h, _⟩; exact absurd h (by simp [busy, fresh]), _, rfl⟩

/-- Busy states, with a host that does nothing and with one that waits. -/
theorem witness_EveryTransactionEnds :
    (let s := busy .ackW1 reqR true (some 9) (acks [true])
     Inv s ∧ s.fault = false ∧ s.host = []) ∧
    (let s : State := { busy .deassert reqW true none Env.free with host := [.await] }
     Inv s ∧ s.fault = false ∧ s.host = .await :: []) :=
  ⟨⟨inv_ackW1 legalR 9 _, rfl, rfl⟩,
    ⟨⟨⟨.deassert, rfl, reqW, ⟨rfl, legalW, ⟨_, rfl⟩, rfl, rfl, rfl⟩, fun _ => .inl ⟨rfl, rfl⟩⟩, .inr rfl, rfl,
      Nat.zero_le _⟩, rfl, rfl⟩⟩

/-- A quiescent state whose host has `n` times a request, one step of its transaction, and a reset. -/
def calling (n : Nat) (trace : List Event) : State :=
  { State.reset with
    cfg := cfgX, trace := trace, env := { Env.free with ready := List.replicate n true },
    host := (List.replicate n [.request 0x0000100300110500#64, .idle, .reset]).flatten }

/-- Runs on the unscripted clock with any number of calls of `Now()`. -/
theorem witness_ClockOfEveryRunIsFair (n : Nat) : ∀ trace, (calling n trace).env.elapsed.length = 0 ∧
    ∃ t, run (3 * n) (calling n trace) = .next t ∧ (nows trace).length + n ≤ (nows t.trace).length := by
  induction n with
  | zero => exact fun trace => ⟨rfl, _, rfl, Nat.le_refl _⟩
  | succ n ih =>
    intro trace
    obtain ⟨c, h⟩ : ∃ c, run 3 (calling (n + 1) trace) =
        .next (calling n (trace ++ [.ready true] ++ [.setLine .frame true] ++ [.now c])) := ⟨_, rfl⟩
    obtain ⟨-, t, ht, hn⟩ := ih (trace ++ [.ready true] ++ [.setLine .frame true] ++ [.now c])
    refine ⟨rfl, t, ?_, ?_⟩
    · rw [show 3 * (n + 1) = 3 + 3 * n by omega, run_add 3 (3 * n) h, ht]
    · simp [nows] at hn ⊢
      omega

/-- After reset, and after a request has been accepted and the frame line driven. -/
theorem witness_FrameSymmetryOverRuns :
    (CleanRun (fresh Env.free []) ∧ (fresh Env.free []).phase = some .idle ∧ Phase.idle.quiescent = true) ∧
    ∃ t, CleanRun t ∧ t.phase = some .faVerify ∧ Phase.faVerify.quiescent = false := by
  let e : Env := { Env.free with ready := [true] }
  let s0 : State := fresh e [.request 0x0000100300110500#64]
  have h0 : CleanRun s0 := .start cfgX e _
  obtain ⟨s1, h1, p1, q1⟩ : ∃ s1, step s0 = .next s1 ∧ s1.host = [] ∧ s1.phase = some .faDrive := ⟨_, rfl, rfl, rfl⟩
  obtain ⟨s2, h2, p2⟩ : ∃ s2, step s1 = .next s2 ∧ s2.phase = some .faVerify := by
    cases h1; exact ⟨_, rfl, rfl⟩
  refine ⟨⟨.start cfgX _ _, rfl, rfl⟩, s2, .step (.step h0 ?_ h1) ?_ h2, p2, rfl⟩
  · rintro ⟨_, _, h, _⟩
    exact absurd h (by simp [s0, fresh])
  · rintro ⟨_, _, h, _⟩
    rw [p1] at h
    cases h

theorem witness_FrameOutTellsTheLastDrive :
    let s := busy .faDrive reqW false none Env.free
    (s.frameOut = true → lastDrive s.trace = some s.cfg.frameAssertLevel) ∧
      ∃ t, step s = .next t ∧ t.frameOut = true := ⟨fun h => absurd h (by decide), _, rfl, rfl⟩

theorem witness_ClockAnswersNeverFall :
    let s : State := { busy .faDrive reqW false none (acks []) with trace := [.now 5] }
    (nows s.trace).Pairwise (· ≤ ·) ∧ ∃ t, step s = .next t ∧ nows t.trace = [5, 6] :=
  ⟨by decide, _, rfl, by decide⟩

theorem witness_ParametersStayAndTheTraceGrows :
    ∃ t, step (busy .faDrive reqW false none (acks [])) = .next t := ⟨_, rfl⟩

theorem witness_OnlyTheFrameLineIsDriven :
    let s := busy .faDrive reqW false none (acks [])
    ∃ t, step s = .next t ∧ t.trace = s.trace ++ [.setLine .frame true, .now 1] := ⟨_, rfl, by decide⟩

theorem witness_ExchangeCarriesTheDestination :
    let s := busy .xmit reqW true none { Env.free with exchange := [true], elapsed := [1] }
    Inv s ∧ ∃ t, step s = .next t ∧ t.trace = s.trace ++ [.exchange 0x13#8 0x11#8 5#8 0#8 true, .now 1] :=
  ⟨inv_xmit legalW _, _, rfl, by decide⟩

/-- Two acceptances that differ in `B0`, and two states that differ in `FRAME[0]` before `XMIT`. -/
theorem witness_CallerByteZeroIsNeverSeen :
    (let s := fresh (obliging [] []) []
     s.frame = [] ∧ ∃ s1, present reqW 0#8 true s = .next s1) ∧
    (let s := busy .xmit reqW true none { Env.free with exchange := [true] }
     SameButByte0 s { s with frame := frameCells reqW 0xEE#8 } ∧ ∃ s1, step s = .next s1) :=
  ⟨⟨rfl, _, rfl⟩, ⟨rfl, .inr ⟨reqW, _, _, rfl, rfl, rfl, .inr (.inr (.inl rfl))⟩⟩, _, rfl⟩

/-- A read of `STATUS` with a reserved code in `ST`. -/
theorem witness_StatusLayoutAndRead :
    ({ fresh Env.free [.readStatus] with st := 15#4 } : State).host = .readStatus :: [] := rfl

/-- The last byte received, the first cell at `COUNT`, the last cell of the buffer, and the first index
outside it. -/
theorem witness_HostReadOfResp :
    let s (i : Nat) : State := { reading reqR false [0x12#8] Env.free with host := [.readResp i] }
    (∀ i, Inv (s i) ∧ (s i).host = .readResp i :: []) ∧ 0 < (s 0).count.toNat ∧ (s 1).count.toNat ≤ 1 ∧
      39 < (s 39).cfg.cap ∧ (s 40).cfg.cap ≤ 40 :=
  ⟨fun _ => ⟨⟨⟨.read, rfl, reqR, ⟨rfl, legalR, ⟨_, rfl⟩, rfl, rfl, rfl⟩, rfl, rfl, .inl ⟨rfl, Nat.lt_succ_self 1, rfl⟩⟩,
    .inr rfl, rfl, Nat.le_add_left 1 39⟩, rfl⟩, by decide, by decide, by decide, by decide⟩

end Sys2Proof.Tests
end

section
/-! SUPPORT. The shape of every step the block takes: at most two port calls and some bookkeeping, and then
`ST` is moved on, a failure is raised, or the transaction is settled. The two statements about the scope of a
step, failure entry and return (R120, R121) and the growth of TRACE (R38, R143), are read off from it. -/

namespace Sys2Proof.Machine

/-! ### Settling, field by field -/

section settle
variable (s : State) (m : Bool)

@[simp] theorem State.settle_err : (s.settle m).err = s.err := by
  unfold State.settle; split <;> rfl
@[simp] theorem State.settle_cfg : (s.settle m).cfg = s.cfg := by
  unfold State.settle; split <;> rfl
@[simp] theorem State.settle_trace : (s.settle m).trace = s.trace := by
  unfold State.settle; split <;> rfl

end settle

/-! ### The work of a step -/

/-- `t` has the parameters of `s`, all of its TRACE, and at most two events more. -/
structure TraceExtends (s t : State) : Prop where
  cfg : t.cfg = s.cfg
  trace : s.trace <+: t.trace
  calls : t.trace.length ≤ s.trace.length + 2

/-- What a block step has done before it moves `ST`: port calls and fields of the transaction written, but
not `ERR`, `FAULT` or the host's list. -/
structure PortWork (s x : State) : Prop extends TraceExtends s x where
  err : x.err = s.err
  fault : x.fault = s.fault
  host : x.host = s.host

theorem TraceExtends.of_trace_eq {s t : State} (hc : t.cfg = s.cfg) (ht : t.trace = s.trace) :
    TraceExtends s t :=
  ⟨hc, by simp [ht], by simp [ht]⟩

/-- What leaves the parameters and TRACE alone may follow the port calls. -/
theorem TraceExtends.congr_right {s t u : State} (h : TraceExtends s t) (hc : u.cfg = t.cfg)
    (ht : u.trace = t.trace) : TraceExtends s u :=
  ⟨hc.trans h.cfg, ht ▸ h.trace, ht ▸ h.calls⟩

theorem portWork_afterPoll (l : Line) (s : State) : PortWork s (afterPoll l s) :=
  ⟨⟨rfl, by simp, by simp⟩, rfl, rfl, rfl⟩

theorem portWork_afterPoll_setAck1TO (s : State) : PortWork s (afterPoll .ack s).setAck1TO :=
  ⟨⟨rfl, by simp, by simp⟩, rfl, rfl, rfl⟩

theorem portWork_push (n : Nat) (b : Byte) (s : State) : PortWork s ((s.callReadByte n).push b) :=
  ⟨⟨rfl, by simp, by simp⟩, rfl, rfl, rfl⟩

/-! ### How a block step ends -/

/-- The ways a block step ends: nothing to do, a move of `ST`, a failure raised (R120), or the return of
`DEASSERT` (R90, R121). -/
inductive BlockEnd (s : State) : State → Prop
  | stay : BlockEnd s s
  | goto {x : State} (q : Phase) (work : PortWork s x) : BlockEnd s (x.goto q)
  | raise {x : State} (e : FailCode) (work : PortWork s x) : BlockEnd s (x.raise e)
  | settle {x : State} (m : Bool) (work : PortWork s x) : BlockEnd s (x.settle m)

theorem stepFaDrive_end {s t : State} (h : stepFaDrive s = .next t) : BlockEnd s t := by
  cases h
  exact .goto _ ⟨⟨rfl, by simp, by simp⟩, rfl, rfl, rfl⟩

theorem stepFaVerify_end {s t : State} (h : stepFaVerify s = .next t) : BlockEnd s t := by
  rcases stepFaVerify_cases h with ⟨-, rfl⟩ | ⟨-, -, -, -, rfl⟩ | ⟨-, -, -, -, rfl⟩
  · exact .goto _ (portWork_afterPoll _ s)
  · exact .raise _ (portWork_afterPoll _ s)
  · exact .goto _ (portWork_afterPoll _ s)

theorem stepXmit_end {s t : State} (h : stepXmit s = .next t) : BlockEnd s t := by
  obtain ⟨r, b1, b2, b3, -, -, -, -, rfl⟩ := stepXmit_cases h
  rcases sendFrame_cases r r.destination b1 b2 b3 (s.writeFrame 0 r.destination) with
    ⟨-, hsend⟩ | ⟨-, hsend⟩ <;> rw [hsend]
  · exact .raise _ ⟨⟨rfl, by simp, by simp⟩, rfl, rfl, rfl⟩
  · exact .goto _ ⟨⟨rfl, by simp, by simp⟩, rfl, rfl, rfl⟩

/-- The end of the short wait makes no port call (R95). -/
theorem endShortWait_end {s x : State} (r : Request) (n : Nat) (work : PortWork s x) :
    BlockEnd s (endShortWait r n x) := by
  rcases endShortWait_cases r n x with ⟨-, -, -, hend⟩ | ⟨-, -, hend⟩ | ⟨-, hend⟩ <;> rw [hend]
  · exact .raise _ work
  · exact .goto _ work
  · exact .goto _ ⟨work.toTraceExtends.congr_right rfl rfl, work.err, work.fault, work.host⟩

theorem stepAckW1_end {s t : State} (h : stepAckW1 s = .next t) : BlockEnd s t := by
  rcases stepAckW1_cases h with ⟨r, -, -, rfl⟩ | ⟨r, -, -, -, -, -, rfl⟩ | ⟨-, -, -, -, rfl⟩
  · exact endShortWait_end r _ (portWork_afterPoll .ack s)
  · exact endShortWait_end r _ (portWork_afterPoll_setAck1TO s)
  · exact .goto _ (portWork_afterPoll .ack s)

theorem stepAckW2_end {s t : State} (h : stepAckW2 s = .next t) : BlockEnd s t := by
  rcases stepAckW2_cases h with ⟨-, rfl⟩ | ⟨-, -, -, -, rfl⟩ | ⟨-, -, -, -, rfl⟩
  · exact .goto _ (portWork_afterPoll .ack s)
  · exact .raise _ ⟨⟨rfl, by simp, by simp⟩, rfl, rfl, rfl⟩
  · exact .goto _ (portWork_afterPoll .ack s)

theorem afterByteR_end {s x : State} (r : Request) (work : PortWork s x) :
    BlockEnd s (afterByteR r x) := by
  rcases afterByteR_cases r x with ⟨-, hend⟩ | ⟨-, hend⟩ <;> rw [hend] <;> exact .goto _ work

theorem afterByteT_end {s x : State} (b : Byte) (work : PortWork s x) :
    BlockEnd s (afterByteT b x) := by
  have noted : PortWork s (x.noteTerm b) :=
    ⟨work.toTraceExtends.congr_right (by simp) (by simp), by simp [work.err], by simp [work.fault],
      by simp [work.host]⟩
  rcases afterByteT_cases b x with ⟨-, hend⟩ | ⟨-, -, hend⟩ | ⟨-, -, hend⟩ <;> rw [hend]
  · exact .goto _ work
  · exact .raise _ noted
  · exact .goto _ noted

/-- One byte read ends as its continuation ends on the stored byte, or raises `READ_TRUNCATED` (R103). -/
theorem readOne_end {r : Request} {done : Byte → State → State} {s t : State}
    (hdone : ∀ b x, PortWork s x → BlockEnd s (done b x)) (h : readOne r done s = .next t) :
    BlockEnd s t := by
  rcases readOne_cases h with ⟨-, rfl⟩ | ⟨b, -, -, rfl⟩
  · exact .raise _ ⟨⟨rfl, by simp, by simp⟩, rfl, rfl, rfl⟩
  · exact hdone b _ (portWork_push _ b s)

theorem stepRead_end {s t : State} (h : stepRead s = .next t) : BlockEnd s t := by
  obtain ⟨r, -, ⟨-, hread⟩ | ⟨-, hread⟩⟩ := stepRead_cases h
  · exact readOne_end (fun _ _ => afterByteR_end r) hread
  · exact readOne_end (fun b _ => afterByteT_end b) hread

theorem stepDeassert_end {s t : State} (h : stepDeassert s = .next t) : BlockEnd s t := by
  have work : PortWork s ((s.callSetLine .frame (!s.cfg.frameAssertLevel)).setFrameOut false) :=
    ⟨⟨rfl, by simp, by simp⟩, rfl, rfl, rfl⟩
  rcases stepDeassert_cases h with ⟨-, m, -, rfl⟩ | ⟨-, rfl⟩
  · exact .settle m work
  · exact .settle false work

theorem blockStep_end {s t : State} (h : blockStep s = .next t) : BlockEnd s t := by
  obtain ⟨p, hp, hf⟩ := blockStep_starts h
  rw [blockStep_of_phase hp hf] at h
  cases p with
  | idle | complete | failed => cases h; exact .stay
  | faDrive => exact stepFaDrive_end h
  | faVerify => exact stepFaVerify_end h
  | xmit => exact stepXmit_end h
  | ackW1 => exact stepAckW1_end h
  | ackW2 => exact stepAckW2_end h
  | read => exact stepRead_end h
  | deassert => exact stepDeassert_end h

/-! ### Failure entry and return -/

/-- Only raising a failure brings up a code in a block step: the other ends leave `ERR` alone (R25, R120). -/
theorem BlockEnd.raised {s t : State} (h : BlockEnd s t) (herr : t.err ≠ s.err) :
    ∃ x e, t = x.raise e ∧ PortWork s x := by
  cases h with
  | stay => exact absurd rfl herr
  | goto q work => exact absurd work.err herr
  | raise e work => exact ⟨_, e, rfl, work⟩
  | settle m work => exact absurd ((State.settle_err _ m).trans work.err) herr

/-- With a failure code in `ERR`, `DEASSERT` drives the frame line deasserted and returns in `FAILED`
(R90, R121). -/
theorem stepDeassert_of_failure {s : State} (herr : s.err ≠ FailCode.none.code) :
    stepDeassert s = .next { s with
      st := Phase.failed.code, valid := false, matched := false, frameOut := false,
      trace := s.trace ++ [.setLine .frame (!s.cfg.frameAssertLevel)] } := by
  simp only [stepDeassert, if_neg herr]
  rw [State.settle_failure (by simpa using herr)]
  rfl

/-- After a failure is raised the block's next step is that of `DEASSERT`. -/
theorem blockStep_raise {x : State} (e : FailCode) (hf : x.fault = false) :
    blockStep (x.raise e) = stepDeassert (x.raise e) :=
  blockStep_of_phase (p := .deassert) (State.phase_of (by simp) rfl) hf

/-- Settles O30: only a raise brings up a code, and after it `DEASSERT` is next. -/
theorem failureEntryAndReturn : Obligations.FailureEntryAndReturn := by
  intro s t hhost hnone hstep hcode
  rw [step_of_no_input hhost] at hstep
  obtain ⟨-, -, hfault⟩ := blockStep_starts hstep
  obtain ⟨x, e, rfl, work⟩ := (blockStep_end hstep).raised (hnone ▸ hcode)
  refine ⟨rfl, ?_⟩
  calc step (x.raise e)
      = blockStep (x.raise e) := step_of_no_input (work.host.trans hhost)
    _ = stepDeassert (x.raise e) := blockStep_raise e (work.fault.trans hfault)
    _ = _ := stepDeassert_of_failure hcode

/-! ### The parameters and TRACE -/

theorem BlockEnd.traceExtends {s t : State} (h : BlockEnd s t) : TraceExtends s t := by
  cases h with
  | stay => exact .of_trace_eq rfl rfl
  | goto q work => exact work.toTraceExtends.congr_right rfl rfl
  | raise e work => exact work.toTraceExtends.congr_right rfl rfl
  | settle m work => exact work.toTraceExtends.congr_right (by simp) (by simp)

/-- Acceptance asks whether the transport is ready, and an `AckAware` one reads the acknowledge line
(R75, R84): two port calls at most. -/
theorem accept_traceExtends (r : Request) (b0 : Byte) (legal : Bool) (s : State) :
    TraceExtends s (accept r b0 legal s) := by
  rcases accept_cases r b0 legal s with ⟨-, h⟩ | ⟨-, -, h⟩ | ⟨-, -, -, h⟩ | ⟨-, -, -, h⟩ <;> rw [h]
  · exact .of_trace_eq rfl rfl
  · exact ⟨rfl, by simp, by simp⟩
  · rcases precheck_cases (latch r b0 s).callReady with ⟨-, hpre⟩ | ⟨-, hpre⟩ <;> rw [hpre] <;>
      exact ⟨rfl, by simp, by simp⟩
  · exact ⟨rfl, by simp, by simp⟩

theorem present_traceExtends {r : Request} {b0 : Byte} {legal : Bool} {s t : State}
    (h : present r b0 legal s = .next t) : TraceExtends s t := by
  obtain ⟨-, -, -, ⟨-, rfl⟩ | ⟨-, rfl⟩⟩ := present_cases h
  · exact accept_traceExtends r b0 legal s
  · exact .of_trace_eq rfl rfl

theorem step_traceExtends {s t : State} (h : step s = .next t) : TraceExtends s t := by
  /- Taking off the host's slot changes neither the parameters nor TRACE. -/
  have of_slot {rest : List HostInput} (hs : TraceExtends { s with host := rest } t) :
      TraceExtends s t := ⟨hs.cfg, hs.trace, hs.calls⟩
  rcases step_cases h with ⟨rest, hblock, -⟩ | ⟨-, rest, r, b0, legal, -, -, hpres⟩ | ⟨rest, -, rfl⟩ |
    ⟨rest, reply, -, rfl⟩ | ⟨rest, -, -, -, -, rfl⟩
  · exact of_slot (blockStep_end hblock).traceExtends
  · exact of_slot (present_traceExtends hpres)
  · exact .of_trace_eq rfl rfl
  · exact .of_trace_eq rfl rfl
  · exact .of_trace_eq rfl rfl

/-- Settles O53, by the kinds of step. -/
theorem parametersStayAndTheTraceGrows : Obligations.ParametersStayAndTheTraceGrows := by
  intro s t hstep
  obtain ⟨hcfg, ⟨evs, htrace⟩, hcalls⟩ := step_traceExtends hstep
  refine ⟨hcfg, evs, htrace.symm, ?_⟩
  have hlen : s.trace.length + evs.length = t.trace.length := by rw [← htrace, List.length_append]
  omega

end Sys2Proof.Machine
end

section
/-! SUPPORT. Every step the block can take, said once with its condition and its whole next state: one
constructor of `BlockMove` for each way a step rule ends. The rows of R22, what each step writes to FRAME, RESP
and the flags, and the calls it makes are read off from it. -/

namespace Sys2Proof.Machine

/-! ### The parts of a step that more than one ending shares -/

/-- The poll misses the wanted level at or after the deadline (R93). -/
def PollTimesOut (l : Line) (want : Bool) (s : State) : Prop :=
  s.lineAnswer l ≠ want ∧ ∃ d, s.dl = some d ∧ d ≤ (s.callReadLine l).nowAnswer

/-- The poll misses the wanted level before the deadline (R93). -/
def PollGoesOn (l : Line) (want : Bool) (s : State) : Prop :=
  s.lineAnswer l ≠ want ∧ ∃ d, s.dl = some d ∧ (s.callReadLine l).nowAnswer < d

/-- `x` is the state in which the short wait has ended, by a hit or by its deadline (R95). -/
inductive ShortWaitOver (s : State) : State → Prop
  | hit (answer : s.lineAnswer .ack = ackAssertLevel) : ShortWaitOver s (afterPoll .ack s)
  | timeout (late : PollTimesOut .ack ackAssertLevel s) : ShortWaitOver s (afterPoll .ack s).setAck1TO

/-- `x` is the state after `ReadByte` has answered `b` and `append` has stored it (R101, R102). -/
structure ByteStored (s : State) (r : Request) (b : Byte) (x : State) : Prop where
  req : s.req = some r
  byte : s.byteAnswer = some b
  room : s.count.toNat < s.cfg.cap
  eq : x = (s.callReadByte (r.tByte s.cfg)).push b

/-- The state after the deasserting call of `DEASSERT` (R90). -/
def frameReleased (s : State) : State :=
  (s.callSetLine .frame (!s.cfg.frameAssertLevel)).setFrameOut false

/-! ### The moves of the block -/

/-- The block's step from a state of its machine to the next one, with the condition it is made under and the
state it gives (R22, R85 to R87, R90, R95, R96, R103 to R106). -/
inductive BlockMove (s : State) : Phase → Phase → State → Prop
  | drive : BlockMove s .faDrive .faVerify
      ((((s.callSetLine .frame s.cfg.frameAssertLevel).setFrameOut true).callNow.armDeadline
        (((s.callSetLine .frame s.cfg.frameAssertLevel).setFrameOut true).nowAnswer + s.cfg.tSettle)).goto
          .faVerify)
  | verifyHit (answer : s.lineAnswer .frame = s.cfg.frameAssertLevel) :
      BlockMove s .faVerify .xmit ((afterPoll .frame s).goto .xmit)
  | verifyTimeout (late : PollTimesOut .frame s.cfg.frameAssertLevel s) :
      BlockMove s .faVerify .deassert ((afterPoll .frame s).raise .frameAssertFailure)
  | verifyAgain (early : PollGoesOn .frame s.cfg.frameAssertLevel s) :
      BlockMove s .faVerify .faVerify ((afterPoll .frame s).goto .faVerify)
  | sent {r : Request} {b1 b2 b3 : Byte} {x : State} (req : s.req = some r) (frame1 : s.readFrame 1 = some b1)
      (frame2 : s.readFrame 2 = some b2) (frame3 : s.readFrame 3 = some b3) (answer : s.exchangeAnswer = true)
      (eq : x = (s.writeFrame 0 r.destination).callExchange r.destination b1 b2 b3) :
      BlockMove s .xmit .ackW1 ((x.callNow.armDeadline (x.nowAnswer + r.tAck1 s.cfg)).goto .ackW1)
  | notSent {r : Request} {b1 b2 b3 : Byte} (req : s.req = some r) (frame1 : s.readFrame 1 = some b1)
      (frame2 : s.readFrame 2 = some b2) (frame3 : s.readFrame 3 = some b3) (answer : s.exchangeAnswer = false) :
      BlockMove s .xmit .deassert
        (((s.writeFrame 0 r.destination).callExchange r.destination b1 b2 b3).zeroCount.raise .transmitFailure)
  | shortWaitAgain (early : PollGoesOn .ack ackAssertLevel s) :
      BlockMove s .ackW1 .ackW1 ((afterPoll .ack s).goto .ackW1)
  | shortWaitFailed {r : Request} {x : State} (req : s.req = some r) (mode : r.mode = modeW)
      (ended : ShortWaitOver s x) (unanswered : x.ack1TO = true) (strict : s.cfg.noackWriteValid = false) :
      BlockMove s .ackW1 .deassert (x.raise .ackTimeout)
  | written {r : Request} {x : State} (req : s.req = some r) (mode : r.mode = modeW) (ended : ShortWaitOver s x)
      (accepted : ¬(x.ack1TO = true ∧ s.cfg.noackWriteValid = false)) :
      BlockMove s .ackW1 .deassert (x.goto .deassert)
  | waitLong {r : Request} {x : State} (req : s.req = some r) (mode : r.mode ≠ modeW) (ended : ShortWaitOver s x) :
      BlockMove s .ackW1 .ackW2
        ((x.armDeadline ((s.callReadLine .ack).nowAnswer + r.tAck2 s.cfg)).goto .ackW2)
  | longWaitHit (answer : s.lineAnswer .ack = ackAssertLevel) :
      BlockMove s .ackW2 .read ((afterPoll .ack s).goto .read)
  | longWaitTimeout (late : PollTimesOut .ack ackAssertLevel s) :
      BlockMove s .ackW2 .deassert ((afterPoll .ack s).setAck2TO.raise .ackTimeout)
  | longWaitAgain (early : PollGoesOn .ack ackAssertLevel s) :
      BlockMove s .ackW2 .ackW2 ((afterPoll .ack s).goto .ackW2)
  | readFailed {r : Request} (req : s.req = some r) (answer : s.byteAnswer = none) :
      BlockMove s .read .deassert ((s.callReadByte (r.tByte s.cfg)).raise .readTruncated)
  | countReached {r : Request} {b : Byte} {x : State} (mode : r.mode = modeR) (stored : ByteStored s r b x)
      (last : s.count.toNat + 1 = r.n.toNat) : BlockMove s .read .deassert (x.goto .deassert)
  | countAgain {r : Request} {b : Byte} {x : State} (mode : r.mode = modeR) (stored : ByteStored s r b x)
      (more : s.count.toNat + 1 ≠ r.n.toNat) : BlockMove s .read .read (x.goto .read)
  | trailing {r : Request} {b : Byte} {x : State} (mode : r.mode = modeT) (stored : ByteStored s r b x)
      (seen : s.sawTerm = true) : BlockMove s .read .deassert (x.goto .deassert)
  | overflow {r : Request} {b : Byte} {x : State} (mode : r.mode = modeT) (stored : ByteStored s r b x)
      (unseen : s.sawTerm = false) (full : s.count.toNat + 1 = s.cfg.cap) :
      BlockMove s .read .deassert ((x.noteTerm b).raise .bufferOverflow)
  | termAgain {r : Request} {b : Byte} {x : State} (mode : r.mode = modeT) (stored : ByteStored s r b x)
      (unseen : s.sawTerm = false) (more : s.count.toNat + 1 ≠ s.cfg.cap) :
      BlockMove s .read .read ((x.noteTerm b).goto .read)
  | succeeded {m : Bool} (success : s.err = FailCode.none.code) (check : matchAfter s = some m) :
      BlockMove s .deassert .complete
        { frameReleased s with valid := true, matched := m, st := Phase.complete.code }
  | failed (failure : s.err ≠ FailCode.none.code) :
      BlockMove s .deassert .failed
        { frameReleased s with valid := false, matched := false, st := Phase.failed.code }

/-- `COUNT` is 16 bits wide and `CAP` at most 65535, so the increment of `append` does not wrap (R8, R101). -/
theorem State.push_count_toNat {s : State} (b : Byte) (h : s.count.toNat < s.cfg.cap) :
    (s.push b).count.toNat = s.count.toNat + 1 :=
  (State.append_eq_some (State.append_of_lt b h)).2.1

theorem ByteStored.count {s x : State} {r : Request} {b : Byte} (h : ByteStored s r b x) :
    x.count.toNat = s.count.toNat + 1 := by
  rw [h.eq]
  exact State.push_count_toNat b (s := s.callReadByte _) h.room

theorem stepFaVerify_move {s t : State} (h : stepFaVerify s = .next t) : ∃ q, BlockMove s .faVerify q t := by
  rcases stepFaVerify_cases h with ⟨hv, rfl⟩ | ⟨d, hv, hd, ht, rfl⟩ | ⟨d, hv, hd, ht, rfl⟩
  · exact ⟨_, .verifyHit hv⟩
  · exact ⟨_, .verifyTimeout ⟨hv, d, hd, ht⟩⟩
  · exact ⟨_, .verifyAgain ⟨hv, d, hd, ht⟩⟩

theorem stepXmit_move {s t : State} (h : stepXmit s = .next t) : ∃ q, BlockMove s .xmit q t := by
  obtain ⟨r, b1, b2, b3, hreq, h1, h2, h3, rfl⟩ := stepXmit_cases h
  rcases sendFrame_cases r r.destination b1 b2 b3 (s.writeFrame 0 r.destination) with
    ⟨hx, hsend⟩ | ⟨hx, hsend⟩ <;> rw [hsend]
  · exact ⟨_, .notSent hreq h1 h2 h3 hx⟩
  · exact ⟨_, .sent hreq h1 h2 h3 hx rfl⟩

theorem endShortWait_move {s x : State} {r : Request} (hreq : s.req = some r) (ended : ShortWaitOver s x) :
    ∃ q, BlockMove s .ackW1 q (endShortWait r (s.callReadLine .ack).nowAnswer x) := by
  have hcfg : x.cfg = s.cfg := by cases ended <;> rfl
  rcases endShortWait_cases r (s.callReadLine .ack).nowAnswer x with
    ⟨hm, ha, hn, hend⟩ | ⟨hm, hc, hend⟩ | ⟨hm, hend⟩ <;> rw [hend]
  · exact ⟨_, .shortWaitFailed hreq hm ended ha (hcfg ▸ hn)⟩
  · exact ⟨_, .written hreq hm ended (hcfg ▸ hc)⟩
  · exact ⟨.ackW2, by rw [hcfg]; exact .waitLong hreq hm ended⟩

theorem stepAckW1_move {s t : State} (h : stepAckW1 s = .next t) : ∃ q, BlockMove s .ackW1 q t := by
  rcases stepAckW1_cases h with ⟨r, hreq, hv, rfl⟩ | ⟨r, d, hreq, hv, hd, ht, rfl⟩ | ⟨d, hv, hd, ht, rfl⟩
  · exact endShortWait_move hreq (.hit hv)
  · exact endShortWait_move hreq (.timeout ⟨hv, d, hd, ht⟩)
  · exact ⟨_, .shortWaitAgain ⟨hv, d, hd, ht⟩⟩

theorem stepAckW2_move {s t : State} (h : stepAckW2 s = .next t) : ∃ q, BlockMove s .ackW2 q t := by
  rcases stepAckW2_cases h with ⟨hv, rfl⟩ | ⟨d, hv, hd, ht, rfl⟩ | ⟨d, hv, hd, ht, rfl⟩
  · exact ⟨_, .longWaitHit hv⟩
  · exact ⟨_, .longWaitTimeout ⟨hv, d, hd, ht⟩⟩
  · exact ⟨_, .longWaitAgain ⟨hv, d, hd, ht⟩⟩

theorem afterByteR_move {s x : State} {r : Request} {b : Byte} (mode : r.mode = modeR)
    (stored : ByteStored s r b x) : ∃ q, BlockMove s .read q (afterByteR r x) := by
  rcases afterByteR_cases r x with ⟨hn, hend⟩ | ⟨hn, hend⟩ <;> rw [hend] <;> rw [stored.count] at hn
  · exact ⟨_, .countReached mode stored hn⟩
  · exact ⟨_, .countAgain mode stored hn⟩

theorem afterByteT_move {s x : State} {r : Request} {b : Byte} (mode : r.mode = modeT)
    (stored : ByteStored s r b x) : ∃ q, BlockMove s .read q (afterByteT b x) := by
  have hsaw : x.sawTerm = s.sawTerm := by rw [stored.eq]; rfl
  have hcfg : x.cfg = s.cfg := by rw [stored.eq]; rfl
  rcases afterByteT_cases b x with ⟨hs, hend⟩ | ⟨hs, hc, hend⟩ | ⟨hs, hc, hend⟩ <;> rw [hend] <;>
    rw [hsaw] at hs
  · exact ⟨_, .trailing mode stored hs⟩
  · exact ⟨_, .overflow mode stored hs (by rwa [stored.count, hcfg] at hc)⟩
  · exact ⟨_, .termAgain mode stored hs (by rwa [stored.count, hcfg] at hc)⟩

theorem stepRead_move {s t : State} (h : stepRead s = .next t) : ∃ q, BlockMove s .read q t := by
  obtain ⟨r, hreq, ⟨hm, hread⟩ | ⟨hm, hread⟩⟩ := stepRead_cases h <;>
    rcases readOne_cases hread with ⟨hb, rfl⟩ | ⟨b, hb, hc, rfl⟩
  · exact ⟨_, .readFailed hreq hb⟩
  · exact afterByteR_move hm ⟨hreq, hb, hc, rfl⟩
  · exact ⟨_, .readFailed hreq hb⟩
  · exact afterByteT_move hm ⟨hreq, hb, hc, rfl⟩

theorem stepDeassert_move {s t : State} (h : stepDeassert s = .next t) : ∃ q, BlockMove s .deassert q t := by
  rcases stepDeassert_cases h with ⟨he, m, hm, rfl⟩ | ⟨he, rfl⟩
  · rw [State.settle_success (by simpa using he)]
    exact ⟨_, .succeeded he hm⟩
  · rw [State.settle_failure (by simpa using he)]
    exact ⟨_, .failed he⟩

/-- Everything a block step can do: nothing in a quiescent state (R129), else one of the block's moves. -/
theorem blockStep_cases {s t : State} (h : blockStep s = .next t) :
    ∃ p, s.phase = some p ∧ s.fault = false ∧
      ((p.quiescent = true ∧ t = s) ∨ ∃ q, BlockMove s p q t) := by
  obtain ⟨p, hp, hf⟩ := blockStep_starts h
  rw [blockStep_of_phase hp hf] at h
  refine ⟨p, hp, hf, ?_⟩
  cases p with
  | idle | complete | failed => cases h; exact .inl ⟨rfl, rfl⟩
  | faDrive => cases h; exact .inr ⟨_, .drive⟩
  | faVerify => exact .inr (stepFaVerify_move h)
  | xmit => exact .inr (stepXmit_move h)
  | ackW1 => exact .inr (stepAckW1_move h)
  | ackW2 => exact .inr (stepAckW2_move h)
  | read => exact .inr (stepRead_move h)
  | deassert => exact .inr (stepDeassert_move h)

/-! ### What the moves have in common -/

/-- The short wait ends after its two port calls, with at most `ACK1_TO` written (R95). -/
theorem ShortWaitOver.eq {s x : State} (h : ShortWaitOver s x) :
    ∃ b, x = { afterPoll .ack s with ack1TO := b } := by
  cases h with
  | hit => exact ⟨s.ack1TO, rfl⟩
  | timeout => exact ⟨true, rfl⟩

/-- Every move starts in a busy state. -/
theorem BlockMove.busy {s t : State} {p q : Phase} (h : BlockMove s p q t) : p.quiescent = false := by
  cases h <;> rfl

/-- A move writes `ST`, and writes `ERR` only with a code of R115. -/
theorem BlockMove.codes {s t : State} {p q : Phase} (h : BlockMove s p q t) :
    t.st = q.code ∧ (t.err = s.err ∨ ∃ e : FailCode, t.err = e.code) := by
  cases h with
  | verifyTimeout | notSent | shortWaitFailed | longWaitTimeout | readFailed | overflow =>
    exact ⟨rfl, .inr ⟨_, State.raise_err _ _⟩⟩
  | sent _ _ _ _ _ eq => exact ⟨rfl, .inl (by rw [eq]; rfl)⟩
  | written _ _ ended | waitLong _ _ ended =>
    obtain ⟨b, rfl⟩ := ended.eq
    exact ⟨rfl, .inl rfl⟩
  | countReached _ stored | countAgain _ stored | trailing _ stored => exact ⟨rfl, .inl (by rw [stored.eq]; rfl)⟩
  | termAgain _ stored => exact ⟨rfl, .inl (by rw [stored.eq]; simp)⟩
  | drive | verifyHit | verifyAgain | shortWaitAgain | longWaitHit | longWaitAgain | succeeded | failed =>
    exact ⟨rfl, .inl rfl⟩

/-- The state a move goes to is the state it names. -/
theorem BlockMove.phase_eq {s t : State} {p q : Phase} (h : BlockMove s p q t) (hp : s.phase = some p) :
    t.phase = some q := by
  obtain ⟨hst, herr⟩ := h.codes
  refine State.phase_of ?_ hst
  rcases herr with herr | ⟨e, herr⟩ <;> rw [herr]
  · exact (State.phase_eq_some.mp hp).1
  · exact errLegal_code e

end Sys2Proof.Machine
end

section
/-! SUPPORT. The invariant of the machine (`Inv`), kept by every step: what each move of the block makes of the
facts of its source state, what acceptance makes of a quiescent state, and that nothing else is looked at. -/

namespace Sys2Proof.Machine

/-! ### The parts of the invariant under an update -/

/-- The written cells of `RESP` are exactly those below `COUNT`, which is at most `CAP` (R33, R34). -/
structure BufferFilled (s : State) : Prop where
  resp : s.resp.map Prod.fst = List.range s.count.toNat
  count : s.count.toNat ≤ s.cfg.cap

/-- `FRAME` is written whole or not at all (R32). -/
def FrameWhole (m : Memory) : Prop := m = [] ∨ m.map Prod.fst = [0, 1, 2, 3]

theorem Inv.buffer {s : State} (h : Inv s) : BufferFilled s := ⟨h.resp, h.count⟩

theorem inv_of_parts {s : State} {p : Phase} (hp : s.phase = some p) (facts : PhaseFacts p s)
    (frame : FrameWhole s.frame) (buffer : BufferFilled s) : Inv s :=
  ⟨⟨p, hp, facts⟩, frame, buffer.resp, buffer.count⟩

section congr
variable {s t : State} {r : Request} {out : Bool}

theorem Running.congr (h : Running r out s) (hreq : t.req = s.req := by simp) (hcfg : t.cfg = s.cfg := by simp)
    (hframe : t.frame = s.frame := by simp) (hvalid : t.valid = s.valid := by simp)
    (hmatched : t.matched = s.matched := by simp) (hout : t.frameOut = s.frameOut := by simp) :
    Running r out t :=
  ⟨hreq.trans h.req, hcfg ▸ h.legal, hframe ▸ h.frame, hvalid.trans h.valid, hmatched.trans h.matched,
    hout.trans h.frameOut⟩

theorem NothingRead.congr (h : NothingRead s) (herr : t.err = s.err := by simp)
    (hcount : t.count = s.count := by simp) (hsaw : t.sawTerm = s.sawTerm := by simp)
    (hack2 : t.ack2TO = s.ack2TO := by simp) : NothingRead t :=
  ⟨herr.trans h.err, hcount.trans h.count, hsaw.trans h.sawTerm, hack2.trans h.ack2TO⟩

theorem BufferFilled.congr (h : BufferFilled s) (hresp : t.resp = s.resp := by simp)
    (hcount : t.count = s.count := by simp) (hcfg : t.cfg = s.cfg := by simp) : BufferFilled t :=
  ⟨by rw [hresp, hcount, h.resp], by rw [hcount, hcfg]; exact h.count⟩

end congr

theorem running_iff {r : Request} {out : Bool} {s : State} : Running r out s ↔
    s.req = some r ∧ RequestLegal s.cfg r ∧ (∃ b, s.frame = frameCells r b) ∧ s.valid = false ∧
      s.matched = false ∧ s.frameOut = out :=
  ⟨fun ⟨a, b, c, d, e, f⟩ => ⟨a, b, c, d, e, f⟩, fun ⟨a, b, c, d, e, f⟩ => ⟨a, b, c, d, e, f⟩⟩

theorem nothingRead_iff {s : State} : NothingRead s ↔
    s.err = FailCode.none.code ∧ s.count = 0#16 ∧ s.sawTerm = false ∧ s.ack2TO = false :=
  ⟨fun ⟨a, b, c, d⟩ => ⟨a, b, c, d⟩, fun ⟨a, b, c, d⟩ => ⟨a, b, c, d⟩⟩

/-- The facts of a state of the state machine say nothing of the host's list and replies, and those of a busy
state nothing of `FAULT`. -/
theorem phaseFacts_host_fault (p : Phase) (s : State) (hs : List HostInput) (rs : List HostReply) (f : Bool)
    (hf : p.quiescent = true → f = s.fault) :
    PhaseFacts p { s with host := hs, replies := rs, fault := f } ↔ PhaseFacts p s := by
  cases p with
  | idle | complete | failed =>
    obtain rfl := hf rfl
    simp only [PhaseFacts, nothingRead_iff] <;> rfl
  | faDrive | faVerify | xmit | ackW1 | ackW2 | read | deassert =>
    simp only [PhaseFacts, running_iff, nothingRead_iff] <;> rfl

/-- The invariant says nothing of the host's list and replies. -/
theorem Inv.setHost {s : State} (h : Inv s) (hs : List HostInput) (rs : List HostReply) :
    Inv { s with host := hs, replies := rs } := by
  obtain ⟨⟨p, hp, facts⟩, hframe, hresp, hcount⟩ := h
  exact ⟨⟨p, hp, (phaseFacts_host_fault p s hs rs s.fault fun _ => rfl).mpr facts⟩, hframe, hresp, hcount⟩

/-- A request that sets `FAULT` in a busy state keeps the invariant (R76). -/
theorem Inv.setFault {s : State} {p : Phase} (h : Inv s) (hp : s.phase = some p) (busy : p.quiescent = false) :
    Inv s.setFault := by
  obtain ⟨⟨p', hp', facts⟩, hframe, hresp, hcount⟩ := h
  obtain rfl : p' = p := Option.some.inj (hp'.symm.trans hp)
  exact ⟨⟨p', hp', (phaseFacts_host_fault p' s s.host s.replies true (by simp [busy])).mpr facts⟩, hframe, hresp,
    hcount⟩

/-- The reset state of any parameters meets the invariant (R18, R130). -/
theorem inv_resetEvent (s : State) : Inv (resetEvent s) :=
  inv_of_parts (p := .idle) rfl ⟨rfl, rfl, ⟨rfl, rfl, rfl, rfl⟩, rfl, rfl, rfl, rfl⟩ (.inl rfl)
    ⟨rfl, Nat.zero_le _⟩

/-! ### The byte that a read stores -/

section stored
variable {s x : State} {r : Request} {b : Byte}

theorem ByteStored.running {r' : Request} (h : ByteStored s r b x) (run : Running r' true s) :
    r' = r ∧ Running r true x := by
  obtain rfl : r' = r := Option.some.inj (run.req.symm.trans h.req)
  exact ⟨rfl, by rw [h.eq]; exact run.congr⟩

theorem ByteStored.read_count (h : ByteStored s r b x) : x.resp.read s.count.toNat = some b := by
  rw [h.eq]
  exact Memory.read_write_self _ _ _

theorem ByteStored.read_below (h : ByteStored s r b x) {i : Nat} (hi : i < s.count.toNat) :
    x.resp.read i = s.resp.read i := by
  rw [h.eq]
  exact Memory.read_write_ne _ _ (by simp only [State.callReadByte_count]; omega)

theorem ByteStored.noTermBelow (h : ByteStored s r b x) {k : Nat} (hk : k ≤ s.count.toNat)
    (hterm : NoTermBelow s k) : NoTermBelow x k := by
  intro i hi
  rw [h.read_below (by omega)]
  exact hterm i hi

/-- A stored byte that is no terminator lengthens the part of `RESP` without one. -/
theorem ByteStored.noTermBelow_succ (h : ByteStored s r b x) (hb : b ≠ termByte)
    (hterm : NoTermBelow s s.count.toNat) : NoTermBelow x (s.count.toNat + 1) := by
  intro i hi
  rcases Nat.lt_succ_iff_lt_or_eq.mp hi with hlt | rfl
  · exact h.noTermBelow le_rfl hterm i hlt
  · rw [h.read_count]
    simpa using hb

theorem ByteStored.bufferFilled (h : ByteStored s r b x) (filled : BufferFilled s) : BufferFilled x := by
  have hresp : x.resp = s.resp ++ [(s.count.toNat, b)] := by
    rw [h.eq]
    refine Memory.write_above b fun c hc => ?_
    have : c.1 ∈ List.range s.count.toNat := filled.resp ▸ List.mem_map_of_mem hc
    simpa using this
  have hcfg : x.cfg = s.cfg := by rw [h.eq]; rfl
  have hroom := h.room
  refine ⟨?_, by rw [h.count, hcfg]; omega⟩
  rw [hresp, h.count, List.range_succ, List.map_append, filled.resp]
  rfl

end stored

/-! ### What a read loop of each mode still has to do -/

theorem Reading.of_modeR {r : Request} {s : State} (h : Reading r s) (mode : r.mode = modeR) :
    s.count.toNat < r.n.toNat ∧ s.sawTerm = false := by
  simpa [Reading, mode, modeR, modeT] using h

theorem Reading.of_modeT_unseen {r : Request} {s : State} (h : Reading r s) (mode : r.mode = modeT)
    (unseen : s.sawTerm = false) : s.count.toNat < s.cfg.cap ∧ NoTermBelow s s.count.toNat := by
  simpa [Reading, mode, modeR, modeT, unseen] using h

theorem Reading.of_modeT_seen {r : Request} {s : State} (h : Reading r s) (mode : r.mode = modeT)
    (seen : s.sawTerm = true) : s.count.toNat < s.cfg.cap ∧ 1 ≤ s.count.toNat ∧
      s.resp.read (s.count.toNat - 1) = some termByte ∧ NoTermBelow s (s.count.toNat - 1) := by
  simpa [Reading, mode, modeR, modeT, seen] using h

/-- The read loop of a legal request that expects a response begins with a byte to come (R97, R68). -/
theorem Reading.start {r : Request} {s : State} (legal : RequestLegal s.cfg r) (mode : r.mode ≠ modeW)
    (nothing : NothingRead s) : Reading r s := by
  have hcount : s.count.toNat = 0 := by rw [nothing.count]; rfl
  have hcap := s.cfg.cap_bounds
  rcases legal.2 with ⟨-, hm, -⟩ | ⟨-, hm, hn, -⟩ | ⟨-, hm⟩ | ⟨-, hm, hn⟩
  · exact absurd hm mode
  · exact .inl ⟨hm, by omega, nothing.sawTerm⟩
  · exact .inr (.inl ⟨hm, by omega, nothing.sawTerm, by simp [NoTermBelow, hcount]⟩)
  · exact .inl ⟨hm, by simp [hcount, hn], nothing.sawTerm⟩

/-! ### The facts of the state a move goes to -/

/-- A raised failure goes to `DEASSERT` with the transaction still latched (R120). -/
theorem phaseFacts_raise {r : Request} {x : State} {e : FailCode} (run : Running r true x) (he : e ≠ .none) :
    PhaseFacts .deassert (x.raise e) :=
  ⟨r, run.congr, fun h => absurd (FailCode.code_inj.mp h) he⟩

theorem ShortWaitOver.running {r : Request} {s x : State} (h : ShortWaitOver s x) (run : Running r true s) :
    Running r true x := by
  obtain ⟨b, rfl⟩ := h.eq
  exact run.congr

theorem ShortWaitOver.nothingRead {s x : State} (h : ShortWaitOver s x) (nothing : NothingRead s) :
    NothingRead x := by
  obtain ⟨b, rfl⟩ := h.eq
  exact nothing.congr

/-- Overwriting byte 0 of a latched frame (R87). -/
theorem Running.writeFrame_zero {r : Request} {out : Bool} {s : State} (run : Running r out s) (v : Byte) :
    Running r out (s.writeFrame 0 v) := by
  obtain ⟨b, hframe⟩ := run.frame
  exact ⟨run.req, run.legal, ⟨v, by rw [State.writeFrame_frame, hframe]; rfl⟩, run.valid, run.matched,
    run.frameOut⟩

/-- The check of `DEASSERT` finds a match exactly on a `VALIDATE` whose byte is the address (R110). -/
theorem matchAfter_iff {s : State} {r : Request} {m : Bool} (hreq : s.req = some r) (hm : s.matched = false)
    (h : matchAfter s = some m) : m = true ↔ r.kind = kindValidate ∧ s.resp.read 0 = some r.addr := by
  simp only [matchAfter, hreq] at h
  by_cases hk : r.kind = kindValidate
  · rw [if_pos hk] at h
    cases hread : s.resp.read 0 with
    | none => simp [hread] at h
    | some b =>
      obtain rfl : decide (b = r.addr) = m := by simpa [hread] using h
      simp [hk]
  · rw [if_neg hk, hm] at h
    simp [hk, ← Option.some.inj h]

section facts
variable {s t : State} {q : Phase}

theorem BlockMove.facts_of_faDrive (h : BlockMove s .faDrive q t) (facts : PhaseFacts .faDrive s) :
    PhaseFacts q t := by
  obtain ⟨r, run, nothing, hack⟩ := facts
  cases h with
  | drive =>
    exact ⟨r, ⟨run.req, run.legal, run.frame, run.valid, run.matched, rfl⟩, nothing.congr, hack, _, rfl⟩

theorem BlockMove.facts_of_faVerify (h : BlockMove s .faVerify q t) (facts : PhaseFacts .faVerify s) :
    PhaseFacts q t := by
  obtain ⟨r, run, nothing, hack, d, hd⟩ := facts
  cases h with
  | verifyHit => exact ⟨r, run.congr, nothing.congr, hack⟩
  | verifyTimeout => exact phaseFacts_raise (x := afterPoll .frame s) run.congr (by decide)
  | verifyAgain => exact ⟨r, run.congr, nothing.congr, hack, d, hd⟩

theorem BlockMove.facts_of_xmit (h : BlockMove s .xmit q t) (facts : PhaseFacts .xmit s) : PhaseFacts q t := by
  obtain ⟨r, run, nothing, hack⟩ := facts
  cases h with
  | @sent r' _ _ _ _ _ _ _ _ _ eq =>
    subst eq
    exact ⟨r, (run.writeFrame_zero r'.destination).congr, nothing.congr, hack, _, rfl⟩
  | @notSent r' _ _ _ =>
    exact phaseFacts_raise (r := r) ((run.writeFrame_zero r'.destination).congr) (by decide)

theorem BlockMove.facts_of_ackW1 (h : BlockMove s .ackW1 q t) (facts : PhaseFacts .ackW1 s) :
    PhaseFacts q t := by
  obtain ⟨r, run, nothing, hack, d, hd⟩ := facts
  cases h with
  | shortWaitAgain => exact ⟨r, run.congr, nothing.congr, hack, d, hd⟩
  | shortWaitFailed _ _ ended => exact phaseFacts_raise (ended.running run) (by decide)
  | written req mode ended =>
    obtain rfl := Option.some.inj (run.req.symm.trans req)
    exact ⟨r, (ended.running run).congr, fun _ => .inl ⟨mode, (ended.nothingRead nothing).count⟩⟩
  | waitLong req mode ended =>
    obtain rfl := Option.some.inj (run.req.symm.trans req)
    exact ⟨r, (ended.running run).congr, (ended.nothingRead nothing).congr, mode, _, rfl⟩

theorem BlockMove.facts_of_ackW2 (h : BlockMove s .ackW2 q t) (facts : PhaseFacts .ackW2 s) :
    PhaseFacts q t := by
  obtain ⟨r, run, nothing, mode, d, hd⟩ := facts
  cases h with
  | longWaitHit => exact ⟨r, run.congr, nothing.err, nothing.ack2TO, .start run.legal mode nothing.congr⟩
  | longWaitTimeout => exact phaseFacts_raise (r := r) run.congr (by decide)
  | longWaitAgain => exact ⟨r, run.congr, nothing.congr, mode, d, hd⟩

/-- The read loop: the bytes that have come are those R114 asks for, or there is one to come. -/
theorem BlockMove.facts_of_read (h : BlockMove s .read q t) (facts : PhaseFacts .read s) : PhaseFacts q t := by
  obtain ⟨r, run, herr, hack2, reading⟩ := facts
  cases h with
  | readFailed => exact phaseFacts_raise (r := r) run.congr (by decide)
  | countReached mode stored last =>
    obtain ⟨rfl, run'⟩ := stored.running run
    exact ⟨r, run'.congr, fun _ => .inr (.inl ⟨mode, stored.count.trans last⟩)⟩
  | @countAgain _ _ x mode stored more =>
    obtain ⟨rfl, run'⟩ := stored.running run
    obtain ⟨hlt, hsaw⟩ := reading.of_modeR mode
    have hcount : (x.goto .read).count.toNat < r.n.toNat := by rw [State.goto_count, stored.count]; omega
    refine ⟨r, run'.congr, ?_, ?_, .inl ⟨mode, hcount, ?_⟩⟩ <;> rw [stored.eq] <;> assumption
  | @trailing _ _ x mode stored seen =>
    obtain ⟨rfl, run'⟩ := stored.running run
    obtain ⟨-, hone, hterm, hbefore⟩ := reading.of_modeT_seen mode seen
    have hcount : (x.goto .deassert).count.toNat = s.count.toNat + 1 := stored.count
    refine ⟨r, run'.congr, fun _ => .inr (.inr ⟨mode, by rw [stored.eq]; exact seen, by omega, ?_, ?_⟩)⟩ <;>
      rw [hcount, show s.count.toNat + 1 - 2 = s.count.toNat - 1 by omega]
    · exact (stored.read_below (by omega)).trans hterm
    · exact stored.noTermBelow (by omega) hbefore
  | overflow mode stored =>
    obtain ⟨rfl, run'⟩ := stored.running run
    exact phaseFacts_raise (r := r) run'.congr (by decide)
  | @termAgain _ b x mode stored unseen more =>
    obtain ⟨rfl, run'⟩ := stored.running run
    obtain ⟨hroom, hbefore⟩ := reading.of_modeT_unseen mode unseen
    have hcount : ((x.noteTerm b).goto .read).count.toNat = s.count.toNat + 1 := by simp [stored.count]
    have hcfg : ((x.noteTerm b).goto .read).cfg = s.cfg := by simp [stored.eq]
    have hsaw : ((x.noteTerm b).goto .read).sawTerm = decide (b = termByte) := by simp [stored.eq, unseen]
    have hresp : ((x.noteTerm b).goto .read).resp = x.resp := by simp
    refine ⟨r, run'.congr, by simpa [stored.eq] using herr, by simpa [stored.eq] using hack2, ?_⟩
    simp only [Reading, NoTermBelow, hcount, hcfg, hsaw, hresp]
    by_cases hb : b = termByte
    · refine .inr (.inr ⟨mode, by omega, by simpa using hb, by omega, ?_, ?_⟩)
      · rw [Nat.add_sub_cancel, stored.read_count, hb]
      · exact stored.noTermBelow (by omega) hbefore
    · exact .inr (.inl ⟨mode, by omega, by simpa using hb, stored.noTermBelow_succ hb hbefore⟩)

theorem BlockMove.facts_of_deassert (h : BlockMove s .deassert q t) (facts : PhaseFacts .deassert s)
    (hf : s.fault = false) : PhaseFacts q t := by
  obtain ⟨r, run, received⟩ := facts
  cases h with
  | succeeded success check =>
    have hmatch := matchAfter_iff run.req run.matched check
    exact ⟨r, run.req, run.legal, received success, success, rfl, hf, rfl, hmatch⟩
  | failed failure => exact ⟨⟨r, run.req⟩, failure, rfl, rfl, hf, rfl⟩

/-- Every move of the block leads to what the state it goes to says. -/
theorem BlockMove.facts {p : Phase} (h : BlockMove s p q t) (facts : PhaseFacts p s) (hf : s.fault = false) :
    PhaseFacts q t := by
  have busy := h.busy
  cases p with
  | idle | complete | failed => cases busy
  | faDrive => exact h.facts_of_faDrive facts
  | faVerify => exact h.facts_of_faVerify facts
  | xmit => exact h.facts_of_xmit facts
  | ackW1 => exact h.facts_of_ackW1 facts
  | ackW2 => exact h.facts_of_ackW2 facts
  | read => exact h.facts_of_read facts
  | deassert => exact h.facts_of_deassert facts hf

/-! ### What a move writes to the byte spaces -/

/-- A write to a listed head cell leaves the listed addresses alone. -/
theorem FrameWhole.write_zero {m : Memory} (h : m.map Prod.fst = [0, 1, 2, 3]) (v : Byte) :
    FrameWhole (m.write 0 v) := by
  match m, h with
  | (a, w) :: m, h =>
    obtain ⟨rfl, hm⟩ := List.cons.inj h
    exact .inr (congrArg (0 :: ·) hm)

/-- Only `XMIT` writes to `FRAME`, and there byte 0 of a frame that is written (R87). -/
theorem BlockMove.frameWhole {p : Phase} (h : BlockMove s p q t) (whole : FrameWhole s.frame) :
    FrameWhole t.frame := by
  /- `XMIT` has read the cells it sends, so FRAME is not empty. -/
  have sent {b1 : Byte} (v : Byte) (hread : s.readFrame 1 = some b1) : FrameWhole (s.frame.write 0 v) := by
    rcases whole with hempty | hkeys
    · simp [State.readFrame, hempty] at hread
    · exact .write_zero hkeys v
  cases h with
  | sent _ frame1 _ _ _ eq => subst eq; exact sent _ frame1
  | notSent _ frame1 => exact sent _ frame1
  | shortWaitFailed _ _ ended | written _ _ ended | waitLong _ _ ended =>
    obtain ⟨b, rfl⟩ := ended.eq
    exact whole
  | countReached _ stored | countAgain _ stored | trailing _ stored => rw [stored.eq]; exact whole
  | overflow _ stored | termAgain _ stored => rw [stored.eq]; simpa using whole
  | drive | verifyHit | verifyTimeout | verifyAgain | shortWaitAgain | longWaitHit | longWaitTimeout
  | longWaitAgain | readFailed | succeeded | failed => exact whole

/-- Only the read loop writes to `RESP`, one byte at `COUNT`; a failed exchange sets a count that is 0 (R87,
R101). -/
theorem BlockMove.bufferFilled {p : Phase} (h : BlockMove s p q t) (facts : PhaseFacts p s)
    (filled : BufferFilled s) : BufferFilled t := by
  cases h with
  | sent _ _ _ _ _ eq => subst eq; exact filled.congr
  | notSent =>
    obtain ⟨-, -, nothing, -⟩ := facts
    exact filled.congr (hcount := nothing.count.symm)
  | shortWaitFailed _ _ ended | written _ _ ended | waitLong _ _ ended =>
    obtain ⟨b, rfl⟩ := ended.eq
    exact filled.congr
  | countReached _ stored | countAgain _ stored | trailing _ stored | overflow _ stored | termAgain _ stored =>
    exact (stored.bufferFilled filled).congr
  | succeeded | failed => exact filled.congr rfl rfl rfl
  | drive | verifyHit | verifyTimeout | verifyAgain | shortWaitAgain | longWaitHit | longWaitTimeout
  | longWaitAgain | readFailed => exact filled.congr

end facts

/-- The block's own step keeps the invariant. -/
theorem blockStep_keeps_inv {s t : State} (inv : Inv s) (h : blockStep s = .next t) : Inv t := by
  obtain ⟨p, hp, hf, ⟨-, rfl⟩ | ⟨q, move⟩⟩ := blockStep_cases h
  · exact inv
  · obtain ⟨p', hp', facts⟩ := inv.phase
    obtain rfl : p' = p := Option.some.inj (hp'.symm.trans hp)
    exact inv_of_parts (move.phase_eq hp) (move.facts facts hf) (move.frameWhole inv.frame)
      (move.bufferFilled facts inv.buffer)

/-! ### Acceptance -/

/-- The fields latched from a form that the request map admits are those of a legal request (R68). -/
theorem requestLegal_ofInstr {c : Params} {i : Instr} (h : rowCondition c.cap i = true) :
    RequestLegal c (Request.ofInstr i) := by
  rw [rowCondition_eq_wf] at h
  cases i <;> simp_all [Instr.wf, destinationFits, RequestLegal, Request.ofInstr]

/-- A presented word is presented as legal exactly where it decodes, and then latches a legal request (R68,
R70). -/
theorem presentWord_legal (w : Word64) (s : State) :
    ∃ r b0 legal, presentWord w s = present r b0 legal s ∧
      (legal = false ∧ decode s.cfg.cap w = none ∨
        legal = true ∧ decode s.cfg.cap w ≠ none ∧ RequestLegal s.cfg r) := by
  cases h : decode s.cfg.cap w with
  | none => exact ⟨_, _, _, presentWord_of_invalid h, .inl ⟨rfl, rfl⟩⟩
  | some i =>
    have hrow : rowCondition s.cfg.cap i = true := (Option.filter_eq_some_iff.mp h).2
    refine ⟨_, _, _, (presentWord_of_decode h).trans (exec_eq_present i s), .inr ⟨hrow, ?_, ?_⟩⟩
    · simp
    · exact requestLegal_ofInstr hrow

/-- Latching writes the whole frame, whatever transaction was before (R75). -/
theorem latch_frame_eq {s : State} (whole : FrameWhole s.frame) (r : Request) (b0 : Byte) :
    (latch r b0 s).frame = frameCells r b0 := by
  rw [latch_frame]
  rcases whole with h | h
  · rw [h]; rfl
  · match hm : s.frame, h with
    | [(a, _), (b, _), (c, _), (d, _)], h =>
      obtain ⟨rfl, rfl, rfl, rfl, -⟩ : a = 0 ∧ b = 1 ∧ c = 2 ∧ d = 3 ∧ True := by simpa using h
      rfl

/-- In a quiescent state the frame line is released (R35). -/
theorem PhaseFacts.frameOut_of_quiescent {p : Phase} {s : State} (facts : PhaseFacts p s)
    (quiescent : p.quiescent = true) : s.frameOut = false := by
  cases p with
  | idle => obtain ⟨-, -, -, -, -, -, hout⟩ := facts; exact hout
  | complete => obtain ⟨-, -, -, -, -, -, -, hout, -⟩ := facts; exact hout
  | failed => obtain ⟨-, -, -, -, -, hout⟩ := facts; exact hout
  | faDrive | faVerify | xmit | ackW1 | ackW2 | read | deassert => cases quiescent

/-- What acceptance has at the end of its checks, before it writes `ST` and `ERR`: the latched request and a
cleared result. -/
structure Cleared (r : Request) (b0 : Byte) (s x : State) : Prop where
  req : x.req = some r
  cfg : x.cfg = s.cfg
  frame : x.frame = frameCells r b0
  valid : x.valid = false
  matched : x.matched = false
  fault : x.fault = s.fault
  frameOut : x.frameOut = s.frameOut
  ack1TO : x.ack1TO = false
  nothing : NothingRead x
  buffer : BufferFilled x

section cleared
variable {r : Request} {b0 : Byte} {s x y : State}

theorem cleared_latch (whole : FrameWhole s.frame) (r : Request) (b0 : Byte) :
    Cleared r b0 s (latch r b0 s) :=
  ⟨rfl, rfl, latch_frame_eq whole r b0, rfl, rfl, rfl, rfl, rfl, ⟨rfl, rfl, rfl, rfl⟩, rfl, Nat.zero_le _⟩

theorem Cleared.callReady (h : Cleared r b0 s x) : Cleared r b0 s x.callReady :=
  ⟨h.req, h.cfg, h.frame, h.valid, h.matched, h.fault, h.frameOut, h.ack1TO, h.nothing.congr, h.buffer.congr⟩

theorem Cleared.precheck (h : Cleared r b0 s x) : Cleared r b0 s (precheck x) := by
  rcases precheck_cases x with ⟨-, hpre⟩ | ⟨-, hpre⟩ <;> rw [hpre] <;>
    exact ⟨h.req, h.cfg, h.frame, h.valid, h.matched, h.fault, h.frameOut, h.ack1TO, h.nothing.congr,
      h.buffer.congr⟩

/-- A failed acceptance ends in `FAILED` with the frame line untouched (R13, R120). -/
theorem Cleared.inv_failWith (h : Cleared r b0 s x) (hout : s.frameOut = false) (hf : s.fault = false)
    {e : FailCode} (he : e ≠ .none) : Inv (x.failWith e) :=
  inv_of_parts (p := .failed) (State.phase_of (errLegal_code e) rfl)
    ⟨⟨r, h.req⟩, fun hcode => he (FailCode.code_inj.mp hcode), h.valid, h.matched, h.fault.trans hf,
      h.frameOut.trans hout⟩
    (.inr (by rw [State.failWith_frame, h.frame]; rfl)) h.buffer.congr

/-- An acceptance of a legal request that passes its checks starts the transaction (R75). -/
theorem Cleared.inv_goto (h : Cleared r b0 s x) (hout : s.frameOut = false) (legal : RequestLegal s.cfg r) :
    Inv (x.goto .faDrive) :=
  inv_of_parts (p := .faDrive) (State.phase_of (by rw [State.goto_err, h.nothing.err]; rfl) rfl)
    ⟨r, ⟨h.req, by rw [State.goto_cfg, h.cfg]; exact legal, ⟨b0, h.frame⟩, h.valid, h.matched,
      h.frameOut.trans hout⟩, h.nothing.congr, h.ack1TO⟩
    (.inr (by rw [State.goto_frame, h.frame]; rfl)) h.buffer.congr

end cleared

/-- Acceptance in a quiescent state keeps the invariant (R75). -/
theorem accept_keeps_inv {s : State} {p : Phase} {r : Request} {legal : Bool} (inv : Inv s)
    (hp : s.phase = some p) (quiescent : p.quiescent = true) (hf : s.fault = false) (b0 : Byte)
    (hlegal : legal = true → RequestLegal s.cfg r) : Inv (accept r b0 legal s) := by
  obtain ⟨p', hp', facts⟩ := inv.phase
  obtain rfl : p' = p := Option.some.inj (hp'.symm.trans hp)
  have hout := facts.frameOut_of_quiescent quiescent
  have latched := cleared_latch inv.frame r b0
  rcases accept_cases r b0 legal s with ⟨-, h⟩ | ⟨-, -, h⟩ | ⟨hl, -, -, h⟩ | ⟨hl, -, -, h⟩ <;> rw [h]
  · exact latched.inv_failWith hout hf (by decide)
  · exact latched.callReady.inv_failWith hout hf (by decide)
  · exact latched.callReady.precheck.inv_goto hout (hlegal hl)
  · exact latched.callReady.inv_goto hout (hlegal hl)

/-- A presented word keeps the invariant, accepted or not (R75, R76). -/
theorem presentWord_keeps_inv {s t : State} {w : Word64} (inv : Inv s) (h : presentWord w s = .next t) :
    Inv t := by
  obtain ⟨r, b0, legal, hpres, hlegal⟩ := presentWord_legal w s
  obtain ⟨p, hp, hf, ⟨quiescent, rfl⟩ | ⟨busy, rfl⟩⟩ := present_cases (hpres ▸ h)
  · refine accept_keeps_inv inv hp quiescent hf b0 fun hl => ?_
    rcases hlegal with ⟨rfl, -⟩ | ⟨-, -, legal⟩
    · cases hl
    · exact legal
  · exact inv.setFault hp busy

/-- Settles O47, by the kinds of step: a block step, a request, reset, a read, the end of a wait. -/
theorem everyStepKeepsInvariant : Obligations.EveryStepKeepsInvariant := by
  intro s t inv hstep
  rcases step_cases hstep with ⟨rest, hblock, -⟩ | ⟨w, rest, r, b0, legal, -, hword, hpres⟩ | ⟨rest, -, rfl⟩ |
    ⟨rest, reply, -, rfl⟩ | ⟨rest, -, -, -, -, rfl⟩
  · exact blockStep_keeps_inv (inv.setHost rest s.replies) hblock
  · exact presentWord_keeps_inv (inv.setHost rest s.replies) (hword.trans hpres)
  · exact inv_resetEvent _
  · exact inv.setHost _ _
  · exact inv.setHost _ s.replies

end Sys2Proof.Machine
end

section
/-! SUPPORT. The rows of the transition table (R22): each move of the block is one under its condition, and
acceptance makes the two rows of a quiescent state. -/

namespace Sys2Proof.Machine

/-! ### The rows of the block's moves -/

theorem RequestLegal.mode_of_ne_modeW {c : Params} {r : Request} (h : RequestLegal c r) (hm : r.mode ≠ modeW) :
    r.mode = modeR ∨ r.mode = modeT := by
  rcases h.2 with ⟨-, hw, -⟩ | ⟨-, hr, -⟩ | ⟨-, ht⟩ | ⟨-, hr, -⟩
  · exact absurd hw hm
  · exact .inl hr
  · exact .inr ht
  · exact .inl hr

theorem readEnds_of_modeR {r : Request} (s : State) (mode : r.mode = modeR) :
    ReadEnds r s ↔ s.count.toNat + 1 = r.n.toNat := by
  simp [ReadEnds, mode, modeR, modeT]

theorem readEnds_of_modeT {r : Request} (s : State) (mode : r.mode = modeT) :
    ReadEnds r s ↔ s.sawTerm = true ∨ s.count.toNat + 1 = s.cfg.cap := by
  simp [ReadEnds, mode, modeR, modeT]

/-- The short wait has ended by a hit or at its deadline (R95). -/
theorem ShortWaitOver.cause {s x : State} (h : ShortWaitOver s x) :
    s.lineAnswer .ack = false ∨ ∃ d, s.dl = some d ∧ d ≤ (s.callReadLine .ack).nowAnswer := by
  cases h with
  | hit answer => exact .inl answer
  | timeout late => exact .inr late.2

/-- Every move of the block is a row of the transition table under the row's condition (R22). -/
theorem BlockMove.row {s t : State} {p q : Phase} (h : BlockMove s p q t) (facts : PhaseFacts p s) :
    BlockRow s p q := by
  cases h with
  | drive => simp [BlockRow]
  | verifyHit answer => simp [BlockRow, answer]
  | verifyTimeout late => simpa [BlockRow, PollTimesOut] using late
  | verifyAgain early => simpa [BlockRow, PollGoesOn] using early
  | sent _ _ _ _ answer => simp [BlockRow, answer]
  | notSent _ _ _ _ answer => simp [BlockRow, answer]
  | shortWaitAgain early => simpa [BlockRow, PollGoesOn, ackAssertLevel] using early
  | shortWaitFailed req mode ended | written req mode ended =>
    simpa [BlockRow, req, mode] using ended.cause
  | waitLong req mode ended =>
    obtain ⟨r, run, -⟩ := facts
    obtain rfl := Option.some.inj (run.req.symm.trans req)
    simpa [BlockRow, req, run.legal.mode_of_ne_modeW mode] using ended.cause
  | longWaitHit answer => simpa [BlockRow, ackAssertLevel] using answer
  | longWaitTimeout late => simpa [BlockRow, PollTimesOut, ackAssertLevel] using late
  | longWaitAgain early => simpa [BlockRow, PollGoesOn, ackAssertLevel] using early
  | readFailed _ answer => simp [BlockRow, answer]
  | countReached mode stored last =>
    simp [BlockRow, stored.req, (readEnds_of_modeR s mode).mpr last]
  | countAgain mode stored more =>
    simp [BlockRow, stored.req, stored.byte, readEnds_of_modeR s mode, more]
  | trailing mode stored seen =>
    simp [BlockRow, stored.req, (readEnds_of_modeT s mode).mpr (.inl seen)]
  | overflow mode stored _ full =>
    simp [BlockRow, stored.req, (readEnds_of_modeT s mode).mpr (.inr full)]
  | termAgain mode stored unseen more =>
    simp [BlockRow, stored.req, stored.byte, readEnds_of_modeT s mode, unseen, more]
  | succeeded success => simp [BlockRow, success]
  | failed failure => simpa [BlockRow] using failure

/-! ### The rows of acceptance -/

theorem State.phase_failWith (e : FailCode) (s : State) : (s.failWith e).phase = some .failed :=
  State.phase_of (errLegal_code e) rfl

/-- Acceptance ends in `FAILED` on an illegal request or a transport that is not ready, else in `FA_DRIVE`
(R75, R119). -/
theorem accept_phase (r : Request) (b0 : Byte) (legal : Bool) (s : State) :
    ((legal = false ∨ s.readyAnswer = false) ∧ (accept r b0 legal s).phase = some .failed) ∨
      (legal = true ∧ s.readyAnswer = true ∧ (accept r b0 legal s).phase = some .faDrive) := by
  rcases accept_cases r b0 legal s with ⟨hl, h⟩ | ⟨-, hr, h⟩ | ⟨hl, hr, -, h⟩ | ⟨hl, hr, -, h⟩ <;> rw [h]
  · exact .inl ⟨.inl hl, State.phase_failWith _ _⟩
  · exact .inl ⟨.inr hr, State.phase_failWith _ _⟩
  · refine .inr ⟨hl, hr, State.phase_of ?_ rfl⟩
    rcases precheck_cases (latch r b0 s).callReady with ⟨-, hpre⟩ | ⟨-, hpre⟩ <;> rw [hpre] <;> rfl
  · exact .inr ⟨hl, hr, State.phase_of rfl rfl⟩

/-- Settles O29, by the kinds of step: a block step is a `BlockMove`, and acceptance has its two rows. -/
theorem onlyTheTransitionsOfTheTable : Obligations.OnlyTheTransitionsOfTheTable := by
  intro s t inv hstep
  obtain ⟨p, hp, facts⟩ := inv.phase
  rcases step_cases hstep with ⟨rest, hblock, -⟩ | ⟨w, rest, r, b0, legal, hhost, hword, hpres⟩ |
    ⟨rest, hhost, rfl⟩ | ⟨rest, reply, -, rfl⟩ | ⟨rest, -, -, -, -, rfl⟩
  · obtain ⟨p', hp', -, ⟨-, rfl⟩ | ⟨q, move⟩⟩ := blockStep_cases hblock
    · exact ⟨p, p, hp, hp, .inl rfl⟩
    · obtain rfl : p = p' := Option.some.inj (hp.symm.trans hp')
      have facts' := (phaseFacts_host_fault p s rest s.replies s.fault fun _ => rfl).mpr facts
      exact ⟨p, q, hp, move.phase_eq hp', .inr (.inr (.inr (move.row facts')))⟩
  · obtain ⟨r', b0', legal', hpres', hlegal⟩ := presentWord_legal w { s with host := rest }
    obtain ⟨p', hp', -, ⟨quiescent, rfl⟩ | ⟨-, rfl⟩⟩ := present_cases (hpres'.symm.trans (hword.trans hpres))
    · obtain rfl : p = p' := Option.some.inj (hp.symm.trans hp')
      rcases accept_phase r' b0' legal' { s with host := rest } with ⟨hno, hq⟩ | ⟨hl, hready, hq⟩
      · refine ⟨p, _, hp, hq, .inr (.inr (.inl ⟨w, rest, hhost, quiescent, .inl ⟨rfl, ?_⟩⟩))⟩
        rcases hlegal with ⟨-, hdecode⟩ | ⟨rfl, -, -⟩
        · exact .inl hdecode
        · exact .inr (hno.resolve_left (by simp))
      · refine ⟨p, _, hp, hq, .inr (.inr (.inl ⟨w, rest, hhost, quiescent, .inr ⟨rfl, ?_, hready⟩⟩))⟩
        rcases hlegal with ⟨rfl, -⟩ | ⟨-, hdecode, -⟩
        · cases hl
        · exact hdecode
    · exact ⟨p, p, hp, hp, .inl rfl⟩
  · exact ⟨p, .idle, hp, rfl, .inr (.inl ⟨rest, hhost, rfl⟩)⟩
  · exact ⟨p, p, hp, hp, .inl rfl⟩
  · exact ⟨p, p, hp, hp, .inl rfl⟩

end Sys2Proof.Machine
end

section
/-! SUPPORT. The codes no step writes, who sets and clears `FAULT`, what `FRAME_OUT` tells, and the layout of
`STATUS`: read off from the kinds of step. -/

namespace Sys2Proof.Machine

/-! ### FAULT -/

@[simp] theorem State.settle_fault (s : State) (m : Bool) : (s.settle m).fault = s.fault := by
  unfold State.settle; split <;> rfl

/-- No block step writes `FAULT` (R30). -/
theorem BlockEnd.fault_eq {s t : State} (h : BlockEnd s t) : t.fault = s.fault := by
  cases h with
  | stay => rfl
  | goto q work => exact work.fault
  | raise e work => exact work.fault
  | settle m work => exact (State.settle_fault _ m).trans work.fault

/-- Acceptance does not write `FAULT` (R75). -/
theorem accept_fault (r : Request) (b0 : Byte) (legal : Bool) (s : State) :
    (accept r b0 legal s).fault = s.fault := by
  rcases accept_cases r b0 legal s with ⟨-, h⟩ | ⟨-, -, h⟩ | ⟨-, -, -, h⟩ | ⟨-, -, -, h⟩ <;> rw [h]
  · rfl
  · rfl
  · rcases precheck_cases (latch r b0 s).callReady with ⟨-, hpre⟩ | ⟨-, hpre⟩ <;> rw [hpre] <;> rfl
  · rfl

/-- A step that sets `FAULT` presents a request to a busy block (R30, R76). -/
theorem step_sets_fault {s t : State} (h : step s = .next t) (hs : s.fault = false) (ht : t.fault = true) :
    ∃ w rest p, s.host = .request w :: rest ∧ s.phase = some p ∧ p.quiescent = false := by
  have kept (heq : t.fault = s.fault) : False := by simp [heq, hs] at ht
  rcases step_cases h with ⟨rest, hblock, -⟩ | ⟨w, rest, r, b0, legal, hhost, -, hpres⟩ | ⟨rest, -, rfl⟩ |
    ⟨rest, reply, -, rfl⟩ | ⟨rest, -, -, -, -, rfl⟩
  · exact (kept (blockStep_end hblock).fault_eq).elim
  · obtain ⟨p, hp, -, ⟨-, rfl⟩ | ⟨busy, -⟩⟩ := present_cases hpres
    · exact (kept (accept_fault r b0 legal _)).elim
    · exact ⟨w, rest, p, hhost, hp, busy⟩
  · cases ht
  · exact (kept rfl).elim
  · exact (kept rfl).elim

/-- With `FAULT = 1` the block takes no step and accepts no request: what is left is reset, the host's reads and
the end of a wait (R30). -/
theorem step_of_fault {s t : State} (h : step s = .next t) (hs : s.fault = true) :
    (∃ rest, s.host = .reset :: rest ∧ t.fault = false) ∨
      t = { s with host := t.host, replies := t.replies } := by
  rcases step_cases h with ⟨rest, hblock, -⟩ | ⟨w, rest, r, b0, legal, -, -, hpres⟩ | ⟨rest, hhost, rfl⟩ |
    ⟨rest, reply, -, rfl⟩ | ⟨rest, -, -, -, -, rfl⟩
  · obtain ⟨-, -, hf⟩ := blockStep_starts hblock
    simp [hs] at hf
  · obtain ⟨-, -, hf, -⟩ := present_cases hpres
    simp [hs] at hf
  · exact .inl ⟨rest, hhost, rfl⟩
  · exact .inr rfl
  · exact .inr rfl

/-- Settles O18, by who writes `FAULT` and by what a faulted state still does. -/
theorem faultStandsUntilReset : Obligations.FaultStandsUntilReset :=
  ⟨fun _ _ => step_sets_fault, fun _ _ => step_of_fault⟩

/-! ### Reserved codes -/

theorem Phase.code_toNat_le (p : Phase) : p.code.toNat ≤ 9 := by cases p <;> decide

theorem FailCode.code_toNat_le (e : FailCode) : e.code.toNat ≤ 7 := by cases e <;> decide

/-- `t` has the `ST` and `ERR` of `s`, or codes of R21 and R115. -/
def CodesLegal (s t : State) : Prop :=
  (t.st = s.st ∨ ∃ p : Phase, t.st = p.code) ∧ (t.err = s.err ∨ ∃ e : FailCode, t.err = e.code)

theorem blockStep_codes {s t : State} (h : blockStep s = .next t) : CodesLegal s t := by
  obtain ⟨p, -, -, ⟨-, rfl⟩ | ⟨q, move⟩⟩ := blockStep_cases h
  · exact ⟨.inl rfl, .inl rfl⟩
  · exact ⟨.inr ⟨q, move.codes.1⟩, move.codes.2⟩

theorem accept_codes (r : Request) (b0 : Byte) (legal : Bool) (s : State) :
    CodesLegal s (accept r b0 legal s) := by
  rcases accept_cases r b0 legal s with ⟨-, h⟩ | ⟨-, -, h⟩ | ⟨-, -, -, h⟩ | ⟨-, -, -, h⟩ <;> rw [h]
  · exact ⟨.inr ⟨.failed, rfl⟩, .inr ⟨.invalidArgument, rfl⟩⟩
  · exact ⟨.inr ⟨.failed, rfl⟩, .inr ⟨.busUnavailable, rfl⟩⟩
  · refine ⟨.inr ⟨.faDrive, rfl⟩, .inr ⟨.none, ?_⟩⟩
    rcases precheck_cases (latch r b0 s).callReady with ⟨-, hpre⟩ | ⟨-, hpre⟩ <;> rw [hpre] <;> rfl
  · exact ⟨.inr ⟨.faDrive, rfl⟩, .inr ⟨.none, rfl⟩⟩

theorem step_codes {s t : State} (h : step s = .next t) : CodesLegal s t := by
  rcases step_cases h with ⟨rest, hblock, -⟩ | ⟨w, rest, r, b0, legal, -, -, hpres⟩ | ⟨rest, -, rfl⟩ |
    ⟨rest, reply, -, rfl⟩ | ⟨rest, -, -, -, -, rfl⟩
  · exact blockStep_codes (s := { s with host := rest }) hblock
  · obtain ⟨-, -, -, ⟨-, rfl⟩ | ⟨-, rfl⟩⟩ := present_cases hpres
    · exact accept_codes r b0 legal _
    · exact ⟨.inl rfl, .inl rfl⟩
  · exact ⟨.inr ⟨.idle, rfl⟩, .inr ⟨.none, rfl⟩⟩
  · exact ⟨.inl rfl, .inl rfl⟩
  · exact ⟨.inl rfl, .inl rfl⟩

/-- A reserved code in `ST` or `ERR` names no state (R23, R115). -/
theorem State.phase_eq_none {s : State} (h : 10 ≤ s.st.toNat ∨ 8 ≤ s.err.toNat) : s.phase = none := by
  unfold State.phase
  split
  · next herr =>
    have : s.err.toNat < 8 := of_decide_eq_true herr
    exact Phase.ofCode_eq_none.mpr (h.resolve_right (by omega))
  · rfl

section reserved
variable {s : State} (h : s.phase = none)
include h

theorem blockStep_of_reserved : blockStep s = .fault .reservedState := by simp [blockStep, h]

theorem present_of_reserved (r : Request) (b0 : Byte) (legal : Bool) :
    present r b0 legal s = .fault .reservedState := by simp [present, h]

theorem hostAwait_of_reserved (done : State) : hostAwait s done = .fault .reservedState := by
  simp [hostAwait, h]

theorem exec_of_reserved (i : Instr) : exec i s = .fault .reservedState := by
  rw [exec_eq_present]
  exact present_of_reserved h _ _ _

theorem presentWord_of_reserved (w : Word64) : presentWord w s = .fault .reservedState := by
  obtain ⟨r, b0, legal, hpres⟩ := presentWord_eq_present w s
  rw [hpres]
  exact present_of_reserved h _ _ _

end reserved

/-- Settles O19: the codes a step writes, and that each of the block's ways to a step asks for a state first. -/
theorem reservedStateIsAModelFault : Obligations.ReservedStateIsAModelFault := by
  refine ⟨fun s t hstep => ?_, fun s hcode => ?_⟩
  · obtain ⟨hst, herr⟩ := step_codes hstep
    refine ⟨hst.imp_right ?_, herr.imp_right ?_⟩
    · rintro ⟨p, hp⟩
      exact hp ▸ p.code_toNat_le
    · rintro ⟨e, he⟩
      exact he ▸ e.code_toNat_le
  · have hphase := State.phase_eq_none hcode
    refine ⟨fun hhost => ?_, fun rest hhost => ?_, fun w rest hhost => ?_, exec_of_reserved hphase⟩
    · exact (step_of_no_input hhost).trans (blockStep_of_reserved hphase)
    · rcases hhost with hhost | hhost <;> rw [step_of_input hhost]
      · exact blockStep_of_reserved hphase
      · exact hostAwait_of_reserved (s := { s with host := .await :: rest }) hphase _
    · rw [step_of_input hhost]
      exact presentWord_of_reserved (s := { s with host := rest }) hphase w

/-! ### The frame line -/

/-- `FRAME_OUT = 1` only while the last drive of the frame line was to the level `v` (R35). -/
def FrameOutTells (v : Bool) (s : State) : Prop := s.frameOut = true → lastDrive s.trace = some v

theorem FrameOutTells.of_released {v : Bool} {s : State} (h : s.frameOut = false) : FrameOutTells v s :=
  fun hout => by simp [h] at hout

/-- A state that keeps `FRAME_OUT` and makes no call that drives the frame line tells the same. -/
theorem FrameOutTells.congr {v : Bool} {s t : State} (h : FrameOutTells v s)
    (hout : t.frameOut = s.frameOut := by simp)
    (hdrive : lastDrive t.trace = lastDrive s.trace := by simp [lastDrive]) : FrameOutTells v t :=
  fun ht => hdrive.trans (h (hout ▸ ht))

theorem BlockMove.frameOutTells {s t : State} {p q : Phase} (h : BlockMove s p q t)
    (tells : FrameOutTells s.cfg.frameAssertLevel s) : FrameOutTells s.cfg.frameAssertLevel t := by
  cases h with
  | drive => exact fun _ => by simp [lastDrive]
  | succeeded | failed => exact .of_released rfl
  | sent _ _ _ _ _ eq => subst eq; exact tells.congr
  | shortWaitFailed _ _ ended | written _ _ ended | waitLong _ _ ended =>
    obtain ⟨b, rfl⟩ := ended.eq
    exact tells.congr
  | countReached _ stored | countAgain _ stored | trailing _ stored | overflow _ stored | termAgain _ stored =>
    rw [stored.eq]
    exact tells.congr
  | verifyHit | verifyTimeout | verifyAgain | notSent | shortWaitAgain | longWaitHit | longWaitTimeout
  | longWaitAgain | readFailed => exact tells.congr

/-- The pre-check and the checks of acceptance drive no line (R75, R84). -/
theorem accept_frameOutTells {v : Bool} {s : State} (r : Request) (b0 : Byte) (legal : Bool)
    (tells : FrameOutTells v s) : FrameOutTells v (accept r b0 legal s) := by
  rcases accept_cases r b0 legal s with ⟨-, h⟩ | ⟨-, -, h⟩ | ⟨-, -, -, h⟩ | ⟨-, -, -, h⟩ <;> rw [h]
  · exact tells.congr
  · exact tells.congr
  · rcases precheck_cases (latch r b0 s).callReady with ⟨-, hpre⟩ | ⟨-, hpre⟩ <;> rw [hpre] <;> exact tells.congr
  · exact tells.congr

theorem step_frameOutTells {s t : State} (tells : FrameOutTells s.cfg.frameAssertLevel s) (h : step s = .next t) :
    FrameOutTells s.cfg.frameAssertLevel t := by
  rcases step_cases h with ⟨rest, hblock, -⟩ | ⟨w, rest, r, b0, legal, -, -, hpres⟩ | ⟨rest, -, rfl⟩ |
    ⟨rest, reply, -, rfl⟩ | ⟨rest, -, -, -, -, rfl⟩
  · obtain ⟨p, -, -, ⟨-, rfl⟩ | ⟨q, move⟩⟩ := blockStep_cases hblock
    · exact tells
    · exact move.frameOutTells tells
  · obtain ⟨-, -, -, ⟨-, rfl⟩ | ⟨-, rfl⟩⟩ := present_cases hpres
    · exact accept_frameOutTells r b0 legal (s := { s with host := rest }) tells
    · exact tells
  · exact .of_released rfl
  · exact tells
  · exact tells

/-- Settles O51: only `FA_DRIVE` sets `FRAME_OUT`, as it drives the line, and the parameters stay. -/
theorem frameOutTellsTheLastDrive : Obligations.FrameOutTellsTheLastDrive := by
  intro s t tells hstep
  rw [(step_traceExtends hstep).cfg]
  exact step_frameOutTells tells hstep

/-! ### STATUS -/

/-- One bit appended below a word. -/
theorem getLsbD_append_ofBool {w : Nat} (x : BitVec w) (b : Bool) (i : Nat) :
    (x ++ BitVec.ofBool b).getLsbD i = if i < 1 then b else x.getLsbD (i - 1) := by
  rw [BitVec.getLsbD_append]
  split
  · next h =>
    obtain rfl : i = 0 := by omega
    simp
  · rfl

/-- Which field holds each bit of `STATUS` (R31). -/
theorem State.status_getLsbD (s : State) (i : Nat) :
    s.status.getLsbD i =
      if i < 4 then s.st.getLsbD i else if i < 8 then s.err.getLsbD (i - 4)
      else if i < 9 then s.valid else if i < 10 then s.ack1TO else if i < 11 then s.ack2TO
      else if i < 12 then s.precheckWarn else if i < 13 then s.sawTerm else if i < 14 then s.matched
      else if i < 15 then s.fault else if i < 16 then s.frameOut else s.count.getLsbD (i - 16) := by
  have hsub (a b : Nat) (hb : 0 < b) : (i - a < b) = (i < a + b) := propext (by omega)
  have happend : s.status.getLsbD i = BitVec.getLsbD (w := 16 + 1 + 1 + 1 + 1 + 1 + 1 + 1 + 1 + 4 + 4)
      (s.count ++ BitVec.ofBool s.frameOut ++ BitVec.ofBool s.fault ++ BitVec.ofBool s.matched
        ++ BitVec.ofBool s.sawTerm ++ BitVec.ofBool s.precheckWarn ++ BitVec.ofBool s.ack2TO
        ++ BitVec.ofBool s.ack1TO ++ BitVec.ofBool s.valid ++ s.err ++ s.st) i := rfl
  rw [happend, BitVec.getLsbD_append, BitVec.getLsbD_append]
  simp only [getLsbD_append_ofBool, Nat.sub_sub]
  simp only [hsub, Nat.zero_lt_succ, Nat.ofNat_pos, Nat.reduceAdd]

/-- Settles O57: each field is read off bit by bit, and the read is the slot's own meaning. -/
theorem statusLayoutAndRead : Obligations.StatusLayoutAndRead := by
  refine ⟨fun s => ⟨?st, ?err, ?_, ?_, ?_, ?_, ?_, ?_, ?_, ?_, ?count⟩, fun s rest h => ?read⟩
  case st | err | count =>
    refine BitVec.eq_of_getLsbD_eq fun i hi => ?_
    rw [BitVec.getLsbD_extractLsb', State.status_getLsbD]
    interval_cases i <;> rfl
  case read =>
    rw [step_of_input h]
    rfl
  all_goals rw [State.status_getLsbD]; rfl

end Sys2Proof.Machine
end

section
/-! SUPPORT. What a step sees of the block's memory and what it does to the lines: acceptance looks at no field
an earlier transaction has written, a host read of `RESP` meets the cells below `COUNT` and no others, and the
port calls of a step drive the frame line alone. -/

namespace Sys2Proof.Machine

/-! ### Acceptance and the transaction before it -/

/-- The two states agree in all that a quiescent block keeps from one transaction to the next: the parameters,
the environment, TRACE, `FRAME_OUT`, `FAULT`, and what the host holds. -/
structure SameOutside (s s' : State) : Prop where
  cfg : s.cfg = s'.cfg
  env : s.env = s'.env
  trace : s.trace = s'.trace
  frameOut : s.frameOut = s'.frameOut
  fault : s.fault = s'.fault
  host : s.host = s'.host
  replies : s.replies = s'.replies

/-- Everything latching writes: the request, the whole of `FRAME`, and the cleared result (R75). -/
theorem latch_eq {s : State} (whole : FrameWhole s.frame) (r : Request) (b0 : Byte) :
    latch r b0 s = { s with
      req := some r, frame := frameCells r b0, resp := [], count := 0#16, valid := false,
      err := FailCode.none.code, matched := false, dl := none, ack1TO := false, ack2TO := false,
      precheckWarn := false, sawTerm := false } := by
  rw [← latch_frame_eq whole r b0]
  rfl

/-- Of what an earlier transaction has written, latching leaves `ST` alone. -/
theorem latch_eq_of_sameOutside {s s' : State} (whole : FrameWhole s.frame) (whole' : FrameWhole s'.frame)
    (same : SameOutside s s') (r : Request) (b0 : Byte) :
    latch r b0 s = { latch r b0 s' with st := s.st } := by
  obtain ⟨hcfg, henv, htrace, hout, hfault, hhost, hreplies⟩ := same
  rw [latch_eq whole, latch_eq whole', hcfg, henv, htrace, hout, hfault, hhost, hreplies]

theorem precheck_setSt (c : BitVec 4) (s : State) :
    precheck { s with st := c } = { precheck s with st := c } := by
  rcases precheck_cases s with ⟨hlow, hpre⟩ | ⟨hhigh, hpre⟩ <;> rw [hpre]
  · exact if_pos hlow
  · exact if_neg hhigh

/-- Acceptance looks at the state it starts from only through what it latches, and not at `ST`, which every
outcome of its checks writes (R75, R119). -/
theorem accept_eq_of_latch {s s' : State} {r : Request} {b0 : Byte} {c : BitVec 4}
    (h : latch r b0 s = { latch r b0 s' with st := c }) (legal : Bool) :
    accept r b0 legal s = accept r b0 legal s' := by
  have hanswer : (latch r b0 s).readyAnswer = (latch r b0 s').readyAnswer := by rw [h]; rfl
  have hready : (latch r b0 s).callReady = { (latch r b0 s').callReady with st := c } := by
    rw [h]; rfl
  have hinvalid : (latch r b0 s).failWith .invalidArgument = (latch r b0 s').failWith .invalidArgument := by
    rw [h]; rfl
  have hbusy : (latch r b0 s).callReady.failWith .busUnavailable =
      (latch r b0 s').callReady.failWith .busUnavailable := by rw [hready]; rfl
  have hwarned : (precheck (latch r b0 s).callReady).goto .faDrive =
      (precheck (latch r b0 s').callReady).goto .faDrive := by
    rw [hready, precheck_setSt]
    rfl
  have hgo : (latch r b0 s).callReady.goto .faDrive = (latch r b0 s').callReady.goto .faDrive := by
    rw [hready]; rfl
  simp only [accept, hanswer, hinvalid, hbusy, hwarned, hgo]

/-- Settles O20: both states are accepting, and latching overwrites all in which they differ but `ST`. -/
theorem acceptanceForgetsTheLastTransaction : Obligations.AcceptanceForgetsTheLastTransaction := by
  intro s s' i ready ready' whole whole' hcfg henv htrace hout hhost hreplies
  obtain ⟨p, hp, quiescent, hf⟩ := ready
  obtain ⟨p', hp', quiescent', hf'⟩ := ready'
  have same : SameOutside s s' := ⟨hcfg, henv, htrace, hout, hf.trans hf'.symm, hhost, hreplies⟩
  rw [exec_eq_present, exec_eq_present, present_quiescent hp quiescent hf,
    present_quiescent hp' quiescent' hf', hcfg]
  exact congrArg _ (accept_eq_of_latch (latch_eq_of_sameOutside whole whole' same _ _) _)

/-! ### The host's read of RESP -/

/-- A listed address holds a byte. -/
theorem Memory.read_eq_some_of_mem {m : Memory} {a : Nat} (h : a ∈ m.map Prod.fst) : ∃ b, m.read a = some b := by
  induction m with
  | nil => simp at h
  | cons c m ih =>
    obtain ⟨d, w⟩ := c
    rw [Memory.read_cons]
    split
    · exact ⟨w, rfl⟩
    · next hne => exact ih ((List.mem_cons.mp h).resolve_left hne)

/-- Every cell of `RESP` below `COUNT` is written (R33). -/
theorem BufferFilled.read_below {s : State} (h : BufferFilled s) {i : Nat} (hi : i < s.count.toNat) :
    ∃ b, s.resp.read i = some b :=
  Memory.read_eq_some_of_mem (h.resp ▸ List.mem_range.mpr hi)

section hostReadResp
variable {s : State} {i : Nat}

theorem hostReadResp_outside (h : s.cfg.cap ≤ i) : hostReadResp i s = .refused .respIndexOutsideSpace := by
  simp [hostReadResp, h]

theorem hostReadResp_unwritten (hcap : i < s.cfg.cap) (hcount : s.count.toNat ≤ i) :
    hostReadResp i s = .fault .unwrittenRead := by
  simp [hostReadResp, hcap.not_ge, hcount]

theorem hostReadResp_written {b : Byte} (hcap : i < s.cfg.cap) (hcount : i < s.count.toNat)
    (hread : s.resp.read i = some b) :
    hostReadResp i s = .next { s with replies := s.replies ++ [.resp i b] } := by
  simp [hostReadResp, hcap.not_ge, hcount.not_ge, hread]

end hostReadResp

/-- Settles O58: `COUNT` and `CAP` split the indices in three, and the invariant fills the first part. -/
theorem hostReadOfResp : Obligations.HostReadOfResp := by
  intro s i rest inv hhost
  have hcap := inv.count
  rw [step_of_input hhost]
  refine ⟨fun hi => ?_, fun hcount hi => ?_, fun hi => ?_⟩
  · obtain ⟨b, hread⟩ := inv.buffer.read_below hi
    exact ⟨b, hread, hostReadResp_written (s := { s with host := rest }) (by simpa using hi.trans_le hcap) hi hread⟩
  · exact hostReadResp_unwritten (s := { s with host := rest }) hi hcount
  · exact hostReadResp_outside (s := { s with host := rest }) hi

/-! ### The lines a step calls -/

/-- A call that a step from `s` may make of a line: it drives `FRAME` alone, in `FA_DRIVE` and `DEASSERT`, to the
level of each, and reads any line but `IRQ` (R43, R85, R90). The calls of no line are free. -/
def LineCallAllowed (s : State) : Event → Prop
  | .setLine l v => l = .frame ∧
      ((s.phase = some .faDrive ∧ v = s.cfg.frameAssertLevel) ∨
        (s.phase = some .deassert ∧ v = !s.cfg.frameAssertLevel))
  | .readLine l _ => l ≠ .irq
  | .ready _ | .exchange .. | .readByte .. | .now _ => True

/-- Every event that `t` has behind those of `s` is an allowed one. -/
def LineCallsAllowed (s t : State) : Prop := ∀ e ∈ t.trace.drop s.trace.length, LineCallAllowed s e

theorem LineCallsAllowed.of_append {s t : State} {evs : List Event} (htrace : t.trace = s.trace ++ evs)
    (h : ∀ e ∈ evs, LineCallAllowed s e) : LineCallsAllowed s t := by
  rw [LineCallsAllowed, htrace, List.drop_left]
  exact h

theorem LineCallsAllowed.of_trace_eq {s t : State} (htrace : t.trace = s.trace) : LineCallsAllowed s t :=
  .of_append (evs := []) (by simpa using htrace) (by simp)

/-- A state with the same TRACE has made the same calls. -/
theorem LineCallsAllowed.congr_right {s t u : State} (h : LineCallsAllowed s t) (htrace : u.trace = t.trace) :
    LineCallsAllowed s u := by
  rw [LineCallsAllowed, htrace]
  exact h

/-- The two calls of a poll (R93). -/
theorem lineCallsAllowed_afterPoll {l : Line} (hl : l ≠ .irq) (s : State) : LineCallsAllowed s (afterPoll l s) :=
  .of_append (afterPoll_trace s l) (by simp [LineCallAllowed, hl])

theorem ByteStored.lineCallsAllowed {s x : State} {r : Request} {b : Byte} (h : ByteStored s r b x) :
    LineCallsAllowed s x := by
  rw [h.eq]
  exact .of_append (by rw [State.push_trace, State.callReadByte_trace]) (by simp [LineCallAllowed])

theorem lineCallsAllowed_frameReleased {s : State} (hp : s.phase = some .deassert) :
    LineCallsAllowed s (frameReleased s) :=
  .of_append (State.callSetLine_trace s .frame _) (by simp [LineCallAllowed, hp])

/-- The frame line is driven by the moves from `FA_DRIVE` and `DEASSERT`, and the polls read `FRAME` and `ACK`. -/
theorem BlockMove.lineCallsAllowed {s t : State} {p q : Phase} (h : BlockMove s p q t) (hp : s.phase = some p) :
    LineCallsAllowed s t := by
  cases h with
  | drive => exact by simp [LineCallsAllowed, LineCallAllowed, hp]
  | verifyHit | verifyTimeout | verifyAgain =>
    exact (lineCallsAllowed_afterPoll (l := .frame) (by decide) s).congr_right rfl
  | sent _ _ _ _ _ eq => subst eq; exact by simp [LineCallsAllowed, LineCallAllowed]
  | notSent => exact by simp [LineCallsAllowed, LineCallAllowed]
  | shortWaitFailed _ _ ended | written _ _ ended | waitLong _ _ ended =>
    obtain ⟨b, rfl⟩ := ended.eq
    exact (lineCallsAllowed_afterPoll (l := .ack) (by decide) s).congr_right rfl
  | shortWaitAgain | longWaitHit | longWaitTimeout | longWaitAgain =>
    exact (lineCallsAllowed_afterPoll (l := .ack) (by decide) s).congr_right rfl
  | readFailed => exact by simp [LineCallsAllowed, LineCallAllowed]
  | countReached _ stored | countAgain _ stored | trailing _ stored | overflow _ stored | termAgain _ stored =>
    exact stored.lineCallsAllowed.congr_right (by simp)
  | succeeded | failed => exact (lineCallsAllowed_frameReleased hp).congr_right rfl

/-- Of the lines, acceptance calls at most `ACK`, which its pre-check reads (R75, R84). -/
theorem accept_lineCallsAllowed (r : Request) (b0 : Byte) (legal : Bool) (s : State) :
    LineCallsAllowed s (accept r b0 legal s) := by
  rcases accept_cases r b0 legal s with ⟨-, h⟩ | ⟨-, -, h⟩ | ⟨-, -, -, h⟩ | ⟨-, -, -, h⟩ <;> rw [h]
  · exact .of_trace_eq rfl
  · exact by simp [LineCallsAllowed, LineCallAllowed]
  · rcases precheck_cases (latch r b0 s).callReady with ⟨-, hpre⟩ | ⟨-, hpre⟩ <;> rw [hpre] <;>
      exact by simp [LineCallsAllowed, LineCallAllowed]
  · exact by simp [LineCallsAllowed, LineCallAllowed]

theorem step_lineCallsAllowed {s t : State} (h : step s = .next t) : LineCallsAllowed s t := by
  rcases step_cases h with ⟨rest, hblock, -⟩ | ⟨w, rest, r, b0, legal, -, -, hpres⟩ | ⟨rest, -, rfl⟩ |
    ⟨rest, reply, -, rfl⟩ | ⟨rest, -, -, -, -, rfl⟩
  · obtain ⟨p, hp, -, ⟨-, rfl⟩ | ⟨q, move⟩⟩ := blockStep_cases hblock
    · exact .of_trace_eq rfl
    · exact move.lineCallsAllowed hp
  · obtain ⟨-, -, -, ⟨-, rfl⟩ | ⟨-, rfl⟩⟩ := present_cases hpres
    · exact accept_lineCallsAllowed r b0 legal { s with host := rest }
    · exact .of_trace_eq rfl
  · exact .of_trace_eq rfl
  · exact .of_trace_eq rfl
  · exact .of_trace_eq rfl

/-- Settles O54: the events a step adds are those behind the old TRACE, and each is an allowed call. -/
theorem onlyTheFrameLineIsDriven : Obligations.OnlyTheFrameLineIsDriven := by
  intro s t evs hstep htrace
  have allowed : ∀ e ∈ evs, LineCallAllowed s e := by
    have h := step_lineCallsAllowed hstep
    rwa [LineCallsAllowed, htrace, List.drop_left] at h
  exact ⟨fun l v hmem => allowed _ hmem, fun v hmem => allowed _ hmem rfl⟩

end Sys2Proof.Machine
end

section
/-! SUPPORT. The request word both ways: `decode` and `encode` as inverses of each other (R64, R68), and what
that makes of the rows of the request map (R69) and of the illegal classes (R70). -/

namespace Sys2Proof

open Machine (tableRows)

/-! ### A word and its fields -/

@[simp] theorem Policy.bit_ofBit (b : BitVec 1) : (Policy.ofBit b).bit = b := by revert b; decide

/-- `POLICY` is read from its one bit (R64, R66). -/
theorem fieldPolicy_eq (w : Word64) : fieldPolicy w = if w.getLsbD 58 then .ackAware else .default := by
  have hbit : w.extractLsb' 58 1 = BitVec.ofBool (w.getLsbD 58) :=
    BitVec.eq_of_getLsbD_eq fun i hi => by
      obtain rfl : i = 0 := by omega
      simp
  rw [fieldPolicy, hbit]
  cases w.getLsbD 58 <;> rfl

/-- A bit of a word, read in the field it lies in. -/
theorem getLsbD_extract_sub (w : Word64) {start len i : Nat} (hlo : start ≤ i) (hhi : i < start + len) :
    (w.extractLsb' start len).getLsbD (i - start) = w.getLsbD i := by
  rw [BitVec.getLsbD_extractLsb', decide_eq_true (by omega), Bool.true_and, Nat.add_sub_cancel' hlo]

/-- A word with `RSV = 0` is the word of its own fields (R64). -/
theorem encodeFields_fields {w : Word64} {kind mode : BitVec 2} {n : Byte}
    (row : fieldKind w = kind ∧ fieldRsv w = 0#3 ∧ fieldMode w = mode ∧ fieldN w = n) :
    encodeFields kind (fieldPolicy w) mode n (fieldBase w) (fieldAddr w) (fieldB0 w) (fieldOpc w) (fieldArg1 w)
      (fieldArg2 w) = w := by
  obtain ⟨rfl, hrsv, rfl, rfl⟩ := row
  have hzero (i : Nat) (hlo : 59 ≤ i) (hhi : i < 62) : w.getLsbD i = false := by
    rw [← getLsbD_extract_sub w (len := 3) hlo (by omega)]
    exact (congrArg (·.getLsbD (i - 59)) hrsv).trans BitVec.getLsbD_zero
  refine BitVec.eq_of_getLsbD_eq fun i hi => ?_
  rw [encodeFields_getLsbD, fieldPolicy, Policy.bit_ofBit]
  split
  · exact getLsbD_extract_sub w (start := 0) (by omega) (by omega)
  iterate 8
    split
    · exact getLsbD_extract_sub w (by omega) (by omega)
  split
  · exact (hzero i (by omega) (by omega)).symm
  · exact getLsbD_extract_sub w (by omega) (by omega)

/-- A word is encoded from exactly one choice of fields: its own, and `RSV = 0`. -/
theorem encodeFields_eq_iff {kind : BitVec 2} {policy : Policy} {mode : BitVec 2}
    {n base addr b0 opc arg1 arg2 : Byte} {w : Word64} :
    encodeFields kind policy mode n base addr b0 opc arg1 arg2 = w ↔
      (fieldKind w = kind ∧ fieldRsv w = 0#3 ∧ fieldMode w = mode ∧ fieldN w = n) ∧
        policy = fieldPolicy w ∧ base = fieldBase w ∧ addr = fieldAddr w ∧ b0 = fieldB0 w ∧
        opc = fieldOpc w ∧ arg1 = fieldArg1 w ∧ arg2 = fieldArg2 w := by
  constructor
  · rintro rfl
    simp
  · rintro ⟨row, rfl, rfl, rfl, rfl, rfl, rfl, rfl⟩
    exact encodeFields_fields row

/-! ### Well-formed forms -/

theorem destinationFits_iff {base addr : Byte} :
    destinationFits base addr = true ↔ addr.toNat + base.toNat ≤ 255 := decide_eq_true_iff

theorem Instr.wf_execR {cap : Nat} {policy : Policy} {n base addr b0 opc arg1 arg2 : Byte} :
    (Instr.execR policy n base addr b0 opc arg1 arg2).wf cap = true ↔
      1 ≤ n.toNat ∧ n.toNat ≤ cap ∧ addr.toNat + base.toNat ≤ 255 := by
  rw [Instr.wf, Bool.and_eq_true, Bool.and_eq_true, decide_eq_true_iff, decide_eq_true_iff, destinationFits_iff,
    and_assoc]

/-- The destination of a well-formed form fits its byte (R68). -/
theorem Instr.wf_sum {cap : Nat} {i : Instr} (h : i.wf cap = true) :
    (Machine.Request.ofInstr i).addr.toNat + (Machine.Request.ofInstr i).base.toNat ≤ 255 := by
  cases i with
  | execR => exact (Instr.wf_execR.mp h).2.2
  | execW | execT | validate => exact destinationFits_iff.mp h

/-! ### Decoding and encoding -/

theorem decodeRow_encode (i : Instr) : decodeRow (encode i) = some i := by
  cases i with
  | execW => exact (Laws.RowMatch.execW ..).2.2
  | execR => exact (Laws.RowMatch.execR ..).2.2
  | execT => exact (Laws.RowMatch.execT ..).2.2
  | validate => exact (Laws.RowMatch.validate ..).2.2

/-- The row search finds a form in its own word and in no other (R68). -/
theorem decodeRow_eq_some {w : Word64} {i : Instr} : decodeRow w = some i ↔ encode i = w := by
  refine ⟨fun h => ?_, fun h => h ▸ decodeRow_encode i⟩
  rw [decodeRow_eq] at h
  split at h
  · next row => cases h; exact encodeFields_fields row
  split at h
  · next row =>
    obtain ⟨kind, rsv, mode⟩ := row
    cases h
    exact encodeFields_fields ⟨kind, rsv, mode, rfl⟩
  split at h
  · next row =>
    obtain ⟨kind, rsv, mode⟩ := row
    cases h
    exact encodeFields_fields ⟨kind, rsv, mode, rfl⟩
  split at h
  · next row => cases h; exact encodeFields_fields row
  · cases h

/-- A word decodes to a form exactly when it is the form's word and the form is well-formed (R68). -/
theorem decode_eq_some {cap : Nat} {w : Word64} {i : Instr} :
    decode cap w = some i ↔ encode i = w ∧ i.wf cap = true := by
  rw [decode, Option.filter_eq_some_iff, decodeRow_eq_some, Machine.rowCondition_eq_wf]

/-- Settles O4: the form's word decodes to the form, by the row search and the form's condition. -/
theorem decodeOfEncode : Obligations.DecodeOfEncode :=
  fun _ _ wf => decode_eq_some.mpr ⟨rfl, wf⟩

/-- Settles O5, the same equivalence read the other way. -/
theorem encodeOfDecode : Obligations.EncodeOfDecode :=
  fun _ _ _ h => decode_eq_some.mp h

/-! ### The rows of the request map -/

/-- The mask of `KIND` and `MODE`, which is part of every row's mask. -/
def kindModeMask : Word64 := 0xC300000000000000#64

theorem tableRows_distinct : ∀ row ∈ tableRows, ∀ row' ∈ tableRows,
    row.2 &&& kindModeMask = row'.2 &&& kindModeMask → row = row' := by simp [tableRows, kindModeMask]

theorem tableRows_fix_kind_mode : ∀ row ∈ tableRows, row.1 &&& kindModeMask = kindModeMask := by
  simp [tableRows, kindModeMask]

theorem tableRows_policy_free : ∀ row ∈ tableRows, 0x0400000000000000#64 &&& row.1 = 0#64 := by simp [tableRows]

/-- No word matches two rows, since each fixes `KIND` and `MODE` to a pair of its own (R69). -/
theorem tableRows_disjoint {w : Word64} {row row' : Word64 × Word64} (hrow : row ∈ tableRows)
    (hrow' : row' ∈ tableRows) (h : w &&& row.1 = row.2) (h' : w &&& row'.1 = row'.2) : row = row' := by
  refine tableRows_distinct row hrow row' hrow' ?_
  calc row.2 &&& kindModeMask
      = w &&& kindModeMask := by rw [← h, BitVec.and_assoc, tableRows_fix_kind_mode row hrow]
    _ = row'.2 &&& kindModeMask := by rw [← h', BitVec.and_assoc, tableRows_fix_kind_mode row' hrow']

theorem tableRows_flip_policy {w : Word64} {row : Word64 × Word64} (hrow : row ∈ tableRows) :
    (w ^^^ 0x0400000000000000#64) &&& row.1 = w &&& row.1 := by
  refine BitVec.eq_of_getLsbD_eq fun i _ => ?_
  have hfree : ((0x0400000000000000#64).getLsbD i && row.1.getLsbD i) = false := by
    rw [← BitVec.getLsbD_and, tableRows_policy_free row hrow, BitVec.getLsbD_zero]
  rw [BitVec.getLsbD_and, BitVec.getLsbD_xor, Bool.and_xor_distrib_right, hfree, Bool.xor_false,
    BitVec.getLsbD_and]

theorem row_execW (w : Word64) : w &&& 0xFBFF000000000000#64 = 0x0000000000000000#64 ↔
    fieldKind w = kindExec ∧ fieldRsv w = 0#3 ∧ fieldMode w = modeW ∧ fieldN w = 0#8 :=
  mask_kind_mode_n w kindExec modeW 0#8

theorem row_execR (w : Word64) : w &&& 0xFB00000000000000#64 = 0x0100000000000000#64 ↔
    fieldKind w = kindExec ∧ fieldRsv w = 0#3 ∧ fieldMode w = modeR :=
  mask_kind_mode w kindExec modeR

theorem row_execT (w : Word64) : w &&& 0xFB00000000000000#64 = 0x0200000000000000#64 ↔
    fieldKind w = kindExec ∧ fieldRsv w = 0#3 ∧ fieldMode w = modeT :=
  mask_kind_mode w kindExec modeT

theorem row_validate (w : Word64) : w &&& 0xFBFF000000000000#64 = 0x4101000000000000#64 ↔
    fieldKind w = kindValidate ∧ fieldRsv w = 0#3 ∧ fieldMode w = modeR ∧ fieldN w = 1#8 :=
  mask_kind_mode_n w kindValidate modeR 1#8

/-- Settles O1: rows apart by `KIND` and `MODE`, `POLICY` under no mask, and each form by its fields. -/
theorem requestMapRows : Obligations.RequestMapRows := by
  refine ⟨fun w row hrow row' hrow' => tableRows_disjoint hrow hrow',
    fun w row hrow => by rw [tableRows_flip_policy hrow], ?execW, ?execR, ?execT, ?validate⟩
  all_goals
    intros
    rw [decode_eq_some, encode, encodeFields_eq_iff, fieldPolicy_eq]
  case execW =>
    rw [row_execW, Instr.wf, destinationFits_iff]
    exact ⟨fun ⟨⟨row, operands⟩, sum⟩ => ⟨row, sum, operands⟩,
      fun ⟨row, sum, operands⟩ => ⟨⟨row, operands⟩, sum⟩⟩
  case execR =>
    rw [row_execR, Instr.wf_execR]
    exact ⟨fun ⟨⟨⟨kind, rsv, mode, n⟩, policy, operands⟩, one, cap, sum⟩ =>
        ⟨⟨kind, rsv, mode⟩, one, cap, sum, policy, n.symm, operands⟩,
      fun ⟨⟨kind, rsv, mode⟩, one, cap, sum, policy, n, operands⟩ =>
        ⟨⟨⟨kind, rsv, mode, n.symm⟩, policy, operands⟩, one, cap, sum⟩⟩
  case execT =>
    rw [row_execT, Instr.wf, destinationFits_iff]
    exact ⟨fun ⟨⟨⟨kind, rsv, mode, n⟩, policy, operands⟩, sum⟩ =>
        ⟨⟨kind, rsv, mode⟩, sum, policy, n.symm, operands⟩,
      fun ⟨⟨kind, rsv, mode⟩, sum, policy, n, operands⟩ =>
        ⟨⟨⟨kind, rsv, mode, n.symm⟩, policy, operands⟩, sum⟩⟩
  case validate =>
    rw [row_validate, Instr.wf, destinationFits_iff]
    exact ⟨fun ⟨⟨row, operands⟩, sum⟩ => ⟨row, sum, operands⟩,
      fun ⟨row, sum, operands⟩ => ⟨⟨row, operands⟩, sum⟩⟩

/-! ### The words that decode to no form -/

/-- The fields of a word that decodes to a form (R68, R69). -/
structure LegalFields (cap : Nat) (w : Word64) : Prop where
  rsv : fieldRsv w = 0#3
  sum : (fieldAddr w).toNat + (fieldBase w).toNat ≤ 255
  form : (fieldKind w = kindExec ∧ fieldMode w = modeW ∧ fieldN w = 0#8) ∨
    (fieldKind w = kindExec ∧ fieldMode w = modeR ∧ 1 ≤ (fieldN w).toNat ∧ (fieldN w).toNat ≤ cap) ∨
    (fieldKind w = kindExec ∧ fieldMode w = modeT) ∨
    (fieldKind w = kindValidate ∧ fieldMode w = modeR ∧ fieldN w = 1#8)

theorem legalFields_encode {cap : Nat} {i : Instr} (h : i.wf cap = true) : LegalFields cap (encode i) := by
  have sum : (fieldAddr (encode i)).toNat + (fieldBase (encode i)).toNat ≤ 255 := by
    cases i <;> simpa [encode, Machine.Request.ofInstr] using Instr.wf_sum h
  cases i with
  | execW => exact ⟨fieldRsv_encode .., sum, .inl (by simp [encode])⟩
  | execR =>
    obtain ⟨one, le, -⟩ := Instr.wf_execR.mp h
    exact ⟨fieldRsv_encode .., sum, .inr (.inl (by simp [encode, one, le]))⟩
  | execT => exact ⟨fieldRsv_encode .., sum, .inr (.inr (.inl (by simp [encode])))⟩
  | validate => exact ⟨fieldRsv_encode .., sum, .inr (.inr (.inr (by simp [encode])))⟩

/-- The words that decode are those with the fields of a form (R68). -/
theorem decode_ne_none_iff {cap : Nat} {w : Word64} : decode cap w ≠ none ↔ LegalFields cap w := by
  constructor
  · intro h
    obtain ⟨i, hi⟩ := Option.ne_none_iff_exists'.mp h
    obtain ⟨rfl, wf⟩ := decode_eq_some.mp hi
    exact legalFields_encode wf
  · rintro ⟨rsv, sum, form⟩
    have fits := destinationFits_iff.mpr sum
    obtain ⟨i, hi, wf⟩ : ∃ i, encode i = w ∧ i.wf cap = true := by
      rcases form with ⟨kind, mode, n⟩ | ⟨kind, mode, one, le⟩ | ⟨kind, mode⟩ | ⟨kind, mode, n⟩
      · exact ⟨.execW .., encodeFields_fields ⟨kind, rsv, mode, n⟩, fits⟩
      · exact ⟨.execR .., encodeFields_fields ⟨kind, rsv, mode, rfl⟩, Instr.wf_execR.mpr ⟨one, le, sum⟩⟩
      · exact ⟨.execT .., encodeFields_fields ⟨kind, rsv, mode, rfl⟩, fits⟩
      · exact ⟨.validate .., encodeFields_fields ⟨kind, rsv, mode, n⟩, fits⟩
    rw [decode_eq_some.mpr ⟨hi, wf⟩]
    exact Option.some_ne_none i

/-- The seven classes of R70, in its order. -/
def IllegalFields (cap : Nat) (w : Word64) : Prop :=
  (fieldKind w = 2#2 ∨ fieldKind w = 3#2) ∨
  fieldRsv w ≠ 0#3 ∨
  fieldMode w = 3#2 ∨
  (fieldKind w = 0#2 ∧ fieldMode w = 0#2 ∧ fieldN w ≠ 0#8) ∨
  (fieldKind w = 0#2 ∧ fieldMode w = 1#2 ∧ (fieldN w = 0#8 ∨ cap < (fieldN w).toNat)) ∨
  (fieldKind w = 1#2 ∧ (fieldMode w ≠ 1#2 ∨ fieldN w ≠ 1#8)) ∨
  255 < (fieldAddr w).toNat + (fieldBase w).toNat

/-- Of the 16 pairs of `KIND` and `MODE` the forms take four, three of them under a condition on `N`; the classes of
R70 about these fields are what is left. -/
theorem form_iff_no_class (kind mode : BitVec 2) (n : Byte) (cap : Nat) :
    ((kind = kindExec ∧ mode = modeW ∧ n = 0#8) ∨
      (kind = kindExec ∧ mode = modeR ∧ 1 ≤ n.toNat ∧ n.toNat ≤ cap) ∨
      (kind = kindExec ∧ mode = modeT) ∨ (kind = kindValidate ∧ mode = modeR ∧ n = 1#8)) ↔
    ¬(kind = 2#2 ∨ kind = 3#2) ∧ ¬mode = 3#2 ∧ ¬(kind = 0#2 ∧ mode = 0#2 ∧ n ≠ 0#8) ∧
      ¬(kind = 0#2 ∧ mode = 1#2 ∧ (n = 0#8 ∨ cap < n.toNat)) ∧ ¬(kind = 1#2 ∧ (mode ≠ 1#2 ∨ n ≠ 1#8)) := by
  have values (x : BitVec 2) : x = 0#2 ∨ x = 1#2 ∨ x = 2#2 ∨ x = 3#2 := by revert x; decide
  have pos : 1 ≤ n.toNat ↔ n ≠ 0#8 := Nat.one_le_iff_ne_zero.trans (not_congr (BitVec.toNat_inj (y := 0#8)))
  rw [pos, kindExec, kindValidate, modeW, modeR, modeT]
  rcases values kind with rfl | rfl | rfl | rfl
  case inr.inr.inl | inr.inr.inr => simp
  all_goals rcases values mode with rfl | rfl | rfl | rfl <;> simp

/-- A word outside the seven classes of R70 has the fields of a form. -/
theorem legalFields_iff {cap : Nat} {w : Word64} : LegalFields cap w ↔ ¬IllegalFields cap w := by
  constructor
  · rintro ⟨rsv, sum, form⟩
    obtain ⟨kind, mode, countW, countR, countV⟩ := (form_iff_no_class ..).mp form
    simp only [IllegalFields, not_or]
    exact ⟨not_or.mp kind, not_not.mpr rsv, mode, countW, countR, countV, not_lt.mpr sum⟩
  · intro legal
    simp only [IllegalFields, not_or] at legal
    obtain ⟨kind, rsv, mode, countW, countR, countV, sum⟩ := legal
    exact ⟨not_not.mp rsv, not_lt.mp sum,
      (form_iff_no_class ..).mpr ⟨not_or.mpr kind, mode, countW, countR, countV⟩⟩

theorem decode_eq_none_iff {cap : Nat} {w : Word64} : decode cap w = none ↔ IllegalFields cap w := by
  rw [← not_iff_not, ← ne_eq, decode_ne_none_iff, legalFields_iff]

end Sys2Proof
end

section
/-! SUPPORT. Requests on their way to the block: the step that presents a word (R75), the words that fail it
(R70), the destination byte (R61), the assembler lines (R72), and SCAN (R73). -/

namespace Sys2Proof.Machine

/-! ### The step that presents a word -/

theorem step_of_request {s : State} {w : Word64} {rest : List HostInput} (h : s.host = .request w :: rest) :
    step s = presentWord w { s with host := rest } := step_of_input h

/-- Settles O11: the slot is a request, and its word decodes. -/
theorem stepRunsTheDecodedRequest : Obligations.StepRunsTheDecodedRequest := by
  constructor
  · intro s w rest i hhost hdecode
    rw [step_of_request hhost]
    exact presentWord_of_decode hdecode
  · intro s nbits w i hdecode
    rw [step_of_request rfl]
    exact presentWord_of_decode hdecode

/-- A word of no form, presented to a block that accepts, is latched and failed with no port call (R70, R119). -/
theorem step_of_illegal {s : State} {w : Word64} {rest : List HostInput} (ready : Ready s)
    (hhost : s.host = .request w :: rest) (illegal : decode s.cfg.cap w = none) :
    step s = .next ((latch (Request.ofWord w) (fieldB0 w) { s with host := rest }).failWith .invalidArgument) := by
  obtain ⟨p, hp, quiescent, hf⟩ := ready
  calc step s
      = presentWord w { s with host := rest } := step_of_request hhost
    _ = presentIllegal w { s with host := rest } := presentWord_of_invalid illegal
    _ = _ := present_quiescent (s := { s with host := rest }) hp quiescent hf _ _ false

/-- Settles O3: the classes by the fields of a word, the failure by what acceptance latches. -/
theorem illegalWordsFailWithoutPortCall : Obligations.IllegalWordsFailWithoutPortCall :=
  ⟨fun _ _ => decode_eq_none_iff, fun _ _ _ ready hhost illegal =>
    ⟨_, step_of_illegal ready hhost illegal, rfl, rfl, rfl, rfl, rfl, rfl⟩⟩

/-- Settles O7: the sum of a legal request fits its byte. -/
theorem destinationIsTheExactSum : Obligations.DestinationIsTheExactSum :=
  fun _ _ wf => Request.destination_toNat (Instr.wf_sum wf)

/-! ### The assembler lines -/

@[simp] theorem asmByte_toNat (b : Byte) : asmByte b.toNat = some b := by
  rw [asmByte, if_pos b.isLt, BitVec.ofNat_toNat, BitVec.setWidth_eq]

/-- An option that is absent writes 0 (R72). -/
@[simp] theorem asmByte_option (ob : Option Byte) :
    asmByte ((ob.map BitVec.toNat).getD 0) = some (ob.getD 0#8) := by
  cases ob with
  | none => rfl
  | some b => exact asmByte_toNat b

/-- Settles O2: every number of the line is a byte, so each form's line has the word of its fields. -/
theorem assemblerLinesBuildTheirWords : Obligations.AssemblerLinesBuildTheirWords := by
  rintro addr base opc arg1 arg2 n b0 ack ob0 on rfl
  refine ⟨?_, ?_, ?_, ?_⟩ <;> simp [assemble, asmPolicy]

/-! ### SCAN -/

/-- The addresses of a SCAN as numbers (R73): every one fits a byte. -/
theorem scanAddresses_toNat (lo hi : Byte) :
    (scanAddresses lo hi).map BitVec.toNat = List.range' lo.toNat (hi.toNat + 1 - lo.toNat) := by
  have hlt := hi.isLt
  rw [scanAddresses, List.map_map]
  refine (List.map_congr_left fun a ha => ?_).trans (List.map_id _)
  have := List.mem_range'_1.mp ha
  exact (BitVec.toNat_ofNat a 8).trans (Nat.mod_eq_of_lt (by omega))

/-- The numbers from `lo` on, of those below `n`. -/
theorem filter_le_range (lo n : Nat) : (List.range n).filter (fun a => lo ≤ a) = List.range' lo (n - lo) := by
  induction n with
  | zero => simp
  | succ n ih =>
    rw [List.range_succ, List.filter_append, ih]
    by_cases h : lo ≤ n
    · rw [Nat.succ_sub h, List.range'_concat]
      simp [h]
    · simp [h]
      omega

/-- The MATCH bit of a state's STATUS word (R31). -/
theorem statusMatch_status (s : State) : statusMatch s.status = s.matched := s.status_getLsbD 13

/-- Of a list paired with marks, the entries whose mark is set stand in the order of the list. -/
theorem marked_sublist {α β : Type} (mark : β → Bool) (as : List α) (bs : List β) :
    ((as.zip bs).filterMap fun p => if mark p.2 then some p.1 else none).Sublist as := by
  induction as generalizing bs with
  | nil => simp
  | cons a as ih =>
    cases bs with
    | nil => simp
    | cons b bs =>
      rw [List.zip_cons_cons]
      by_cases h : mark b = true
      · rw [List.filterMap_cons, if_pos h]
        exact (ih bs).cons_cons a
      · rw [List.filterMap_cons, if_neg h]
        exact (ih bs).cons a

/-- The result of a SCAN holds the addresses at whose place the VALIDATE ended with `MATCH = 1` (R73). -/
theorem mem_scanResult {lo hi : Byte} {ends : List State} {a : Byte} :
    a ∈ scanResult lo hi (ends.map State.status) ↔
      ∃ (i : Nat) (e : State), (scanAddresses lo hi)[i]? = some a ∧ ends[i]? = some e ∧ e.matched = true := by
  rw [scanResult, List.mem_filterMap]
  constructor
  · rintro ⟨⟨b, word⟩, hmem, hsome⟩
    obtain ⟨i, hi⟩ := List.mem_iff_getElem?.mp hmem
    obtain ⟨hb, hword⟩ := List.getElem?_zip_eq_some.mp hi
    obtain ⟨e, he, rfl⟩ := Option.map_eq_some_iff.mp (List.getElem?_map.symm.trans hword)
    obtain ⟨hmatch, heq⟩ := Option.ite_none_right_eq_some.mp hsome
    exact ⟨i, e, hb.trans heq, he, (statusMatch_status e).symm.trans hmatch⟩
  · rintro ⟨i, e, ha, he, hmatch⟩
    refine ⟨(a, e.status), List.mem_iff_getElem?.mpr ⟨i, List.getElem?_zip_eq_some.mpr ⟨ha, ?_⟩⟩, ?_⟩
    · rw [List.getElem?_map, he]; rfl
    · exact if_pos ((statusMatch_status e).trans hmatch)

/-- A block step leaves the host's list as it is (R127). -/
theorem blockStep_host_eq {s t : State} (h : blockStep s = .next t) : t.host = s.host := by
  have same : t = { t with host := s.host } := Host.Outcome.next.inj (h.symm.trans (blockStep_host h s.host))
  rw [same]

/-- Settles O8: the addresses as a range of numbers, the result by the places of the pairs, and the wait by what
its step is in a quiescent and in a busy state. -/
theorem scanIsASequenceOfValidates : Obligations.ScanIsASequenceOfValidates := by
  refine ⟨fun cap policy base opc arg1 arg2 lo hi => ⟨?_, rfl, fun a _ sum => ?_⟩,
    fun lo hi ends => ⟨marked_sublist statusMatch _ _, fun a => mem_scanResult⟩,
    fun s p rest hhost hp => ⟨fun quiescent => ?_, fun busy _ => ?_⟩⟩
  · rw [scanAddresses_toNat, filter_le_range]
  · exact decode_eq_some.mpr ⟨rfl, destinationFits_iff.mpr sum⟩
  · rw [step_of_await hhost hp, if_pos quiescent]
  · have hblock : step s = blockStep s := by
      rw [step_of_await hhost hp, busy]
      rfl
    refine ⟨hblock, fun t hstep => ?_⟩
    rw [hblock] at hstep
    exact ⟨blockStep_host_eq hstep, (step_of_no_input rfl).trans (blockStep_host hstep [])⟩

end Sys2Proof.Machine
end

section
/-! SUPPORT. The caller's byte 0 (R63): two states that differ in `FRAME[0]` of a frame that is not sent take the
same steps, because only `XMIT` looks at `FRAME`, and it overwrites that cell first (R87). -/

namespace Sys2Proof.Machine

/-! ### A frame whose byte 0 is the caller's -/

/-- The state with another `FRAME` and all else the same. -/
def State.withFrame (m : Memory) (s : State) : State := { s with frame := m }

/-- `FRAME` holds the bytes of `r` behind the caller's byte `b`: before `XMIT` has overwritten it, or where a failure
has ended the transaction without it (R63, R75, R90). -/
structure Unsent (r : Request) (b : Byte) (s : State) : Prop where
  req : s.req = some r
  frame : s.frame = frameCells r b
  phase : s.phase = some .faDrive ∨ s.phase = some .faVerify ∨ s.phase = some .xmit ∨
    s.phase = some .deassert ∨ s.phase = some .complete ∨ s.phase = some .failed

theorem frameCells_whole (r : Request) (b : Byte) : FrameWhole (frameCells r b) := .inr rfl

theorem SameButByte0.refl (s : State) : SameButByte0 s s := ⟨rfl, .inl rfl⟩

/-- Two states that differ at most in byte 0 are equal, or the frame is unsent and the second has another byte 0. -/
theorem SameButByte0.eq_or_unsent {s t : State} (h : SameButByte0 s t) :
    t = s ∨ ∃ r b b', Unsent r b s ∧ t = s.withFrame (frameCells r b') := by
  obtain ⟨rest, frame⟩ := h
  rcases frame with hsame | ⟨r, b, b', req, hb, hb', phase⟩
  · left
    rw [rest, hsame]
  · right
    rw [hb'] at rest
    exact ⟨r, b, b', ⟨req, hb, phase⟩, rest⟩

section unsent
variable {r : Request} {b : Byte} {s t : State}

/-- What is written beside `REQ`, `FRAME` and the codes leaves the frame unsent. -/
theorem Unsent.congr (h : Unsent r b s) (hreq : t.req = s.req) (hframe : t.frame = s.frame)
    (hphase : t.phase = s.phase) : Unsent r b t :=
  ⟨hreq.trans h.req, hframe.trans h.frame, hphase ▸ h.phase⟩

theorem Unsent.same (h : Unsent r b s) (b' : Byte) : SameButByte0 s (s.withFrame (frameCells r b')) :=
  ⟨rfl, .inr ⟨r, b, b', h.req, h.frame, rfl, h.phase⟩⟩

/-- An outcome that is `t` with another byte 0 differs from `t` in that byte alone. -/
theorem Unsent.outcome {o : Result} {b' : Byte} (h : Unsent r b t)
    (ho : o = .next (t.withFrame (frameCells r b'))) : ∃ t1, o = .next t1 ∧ SameButByte0 t t1 :=
  ⟨_, ho, h.same b'⟩

end unsent

/-! ### The block's steps and FRAME -/

theorem stepFaVerify_withFrame {s t : State} (h : stepFaVerify s = .next t) (m : Memory) :
    stepFaVerify (s.withFrame m) = .next (t.withFrame m) := by
  have hpoll : pollIter .frame s.cfg.frameAssertLevel (s.withFrame m) =
      pollIter .frame s.cfg.frameAssertLevel s := rfl
  unfold stepFaVerify at h ⊢
  rw [show (s.withFrame m).cfg = s.cfg from rfl, hpoll]
  split at h <;> cases h <;> rfl

/-- `XMIT` overwrites byte 0 before it reads the frame (R87). -/
theorem stepXmit_withFrame {s : State} {r : Request} {b : Byte} (hframe : s.frame = frameCells r b) (b' : Byte) :
    stepXmit (s.withFrame (frameCells r b')) = stepXmit s := by
  have hwrite (d : Byte) : (s.withFrame (frameCells r b')).writeFrame 0 d = s.writeFrame 0 d := by
    simp only [State.writeFrame, hframe]
    rfl
  simp only [stepXmit, hwrite]
  rfl

/-- On its success path `DEASSERT` releases the frame line and settles with what the check finds (R90, R110). -/
theorem stepDeassert_of_success {s : State} {v : Bool} (herr : s.err = FailCode.none.code)
    (check : matchAfter s = some v) :
    stepDeassert s =
      .next { frameReleased s with valid := true, matched := v, st := Phase.complete.code } := by
  have check' : matchAfter (frameReleased s) = some v := check
  simp only [stepDeassert, if_pos herr]
  rw [← frameReleased, check', ← State.settle_success (s := frameReleased s) herr]

section steps
variable {r : Request} {b : Byte} {s s1 : State}

/-- A block step from an unsent frame is made with any byte 0, and is the same but for that byte (R63, R89). -/
theorem Unsent.blockStep (h : Unsent r b s) (hstep : blockStep s = .next s1) (b' : Byte) :
    ∃ t1, blockStep (s.withFrame (frameCells r b')) = .next t1 ∧ SameButByte0 s1 t1 := by
  obtain ⟨p, hp, hf⟩ := blockStep_starts hstep
  have hblock := blockStep_of_phase (s := s.withFrame (frameCells r b')) hp hf
  obtain ⟨hreq, hframe, hphase⟩ := h
  rw [blockStep_of_phase hp hf] at hstep
  cases p with
  | idle | ackW1 | ackW2 | read => simp [hp] at hphase
  | complete | failed =>
    cases hstep
    exact Unsent.outcome ⟨hreq, hframe, hphase⟩ hblock
  | xmit => exact ⟨s1, hblock.trans ((stepXmit_withFrame hframe b').trans hstep), .refl s1⟩
  | faDrive =>
    cases hstep
    exact Unsent.outcome ⟨hreq, hframe, .inr (.inl (BlockMove.drive.phase_eq hp))⟩ hblock
  | faVerify =>
    obtain ⟨q, move⟩ := stepFaVerify_move hstep
    have hq := move.phase_eq hp
    have unsent : Unsent r b s1 := by cases move <;> exact ⟨hreq, hframe, by simp [hq]⟩
    exact unsent.outcome (hblock.trans (stepFaVerify_withFrame hstep _))
  | deassert =>
    obtain ⟨q, move⟩ := stepDeassert_move hstep
    have hq := move.phase_eq hp
    have unsent : Unsent r b s1 := by cases move <;> exact ⟨hreq, hframe, by simp [hq]⟩
    refine unsent.outcome (b' := b') (hblock.trans ?_)
    cases move with
    | succeeded success check => exact stepDeassert_of_success (s := s.withFrame (frameCells r b')) success check
    | failed failure => exact stepDeassert_of_failure (s := s.withFrame (frameCells r b')) failure

end steps

/-! ### Acceptance -/

/-- Latching writes the caller's byte to `FRAME[0]` alone (R63, R75). -/
theorem latch_callerByte {s : State} (whole : FrameWhole s.frame) (r : Request) (b b' : Byte) :
    latch r b' s = (latch r b s).withFrame (frameCells r b') := by
  rw [latch_eq whole, latch_eq whole]
  rfl

theorem precheck_withFrame (m : Memory) (s : State) : precheck (s.withFrame m) = (precheck s).withFrame m := by
  rcases precheck_cases s with ⟨hlow, hpre⟩ | ⟨hhigh, hpre⟩ <;> rw [hpre]
  · exact if_pos hlow
  · exact if_neg hhigh

/-- Acceptance does not look at the caller's byte (R63, R75). -/
theorem accept_callerByte {s : State} (whole : FrameWhole s.frame) (r : Request) (b b' : Byte) (legal : Bool) :
    accept r b' legal s = (accept r b legal s).withFrame (frameCells r b') := by
  have hlatch := latch_callerByte whole r b b'
  have hanswer : (latch r b' s).readyAnswer = (latch r b s).readyAnswer := rfl
  have hready : (latch r b' s).callReady = (latch r b s).callReady.withFrame (frameCells r b') := by
    rw [hlatch]; rfl
  have hpre : precheck (latch r b' s).callReady =
      (precheck (latch r b s).callReady).withFrame (frameCells r b') := by
    rw [hready, precheck_withFrame]
  simp only [accept, hanswer]
  split_ifs
  · rw [hlatch]; rfl
  · rw [hready]; rfl
  · rw [hpre]; rfl
  · rw [hready]; rfl

theorem accept_unsent {s : State} (whole : FrameWhole s.frame) (r : Request) (b : Byte) (legal : Bool) :
    Unsent r b (accept r b legal s) := by
  have latched := cleared_latch whole r b
  have hphase : (accept r b legal s).phase = some .failed ∨ (accept r b legal s).phase = some .faDrive :=
    (accept_phase r b legal s).imp (fun ⟨_, h⟩ => h) (fun ⟨_, _, h⟩ => h)
  have hcells : (accept r b legal s).req = some r ∧ (accept r b legal s).frame = frameCells r b := by
    rcases accept_cases r b legal s with ⟨-, h⟩ | ⟨-, -, h⟩ | ⟨-, -, -, h⟩ | ⟨-, -, -, h⟩ <;> rw [h]
    · exact ⟨latched.req, latched.frame⟩
    · exact ⟨latched.callReady.req, latched.callReady.frame⟩
    · exact ⟨latched.callReady.precheck.req, latched.callReady.precheck.frame⟩
    · exact ⟨latched.callReady.req, latched.callReady.frame⟩
  obtain ⟨hreq, hframe⟩ := hcells
  exact ⟨hreq, hframe, by tauto⟩

/-- Requests that differ in the caller's byte 0 are presented with the same outcome but for `FRAME[0]` (R63, R75,
R76). -/
theorem present_callerByte {s s1 : State} {r : Request} {b : Byte} {legal : Bool} (whole : FrameWhole s.frame)
    (h : present r b legal s = .next s1) (b' : Byte) :
    ∃ t1, present r b' legal s = .next t1 ∧ SameButByte0 s1 t1 := by
  obtain ⟨p, hp, hf, ⟨quiescent, rfl⟩ | ⟨busy, rfl⟩⟩ := present_cases h
  · refine (accept_unsent whole r b legal).outcome (b' := b') ?_
    rw [present_quiescent hp quiescent hf, accept_callerByte whole r b b']
  · exact ⟨_, present_busy hp busy hf r b' legal, .refl _⟩

/-! ### The host's slots -/

/-- How a word is presented depends on the state through `CAP` alone (R68). -/
theorem presentWord_of_cfg (w : Word64) (c : Params) :
    ∃ r b0 legal, ∀ s : State, s.cfg = c → presentWord w s = present r b0 legal s := by
  cases h : decode c.cap w with
  | none => exact ⟨_, _, _, fun s hs => presentWord_of_invalid (hs ▸ h)⟩
  | some i =>
    refine ⟨Request.ofInstr i, callerByte i, rowCondition c.cap i, fun s hs => ?_⟩
    rw [← hs]
    exact (presentWord_of_decode (hs ▸ h)).trans (exec_eq_present i s)

/-- A host read of `RESP` that answers a next state has found its byte and records it (R41, R127). -/
theorem hostReadResp_cases {i : Nat} {s t : State} (h : hostReadResp i s = .next t) :
    i < s.cfg.cap ∧ i < s.count.toNat ∧ ∃ v, s.resp.read i = some v ∧
      t = { s with replies := s.replies ++ [.resp i v] } := by
  unfold hostReadResp at h
  split at h
  · cases h
  · next hcap =>
    split at h
    · cases h
    · next hcount =>
      split at h
      · cases h
      · next v hv => exact ⟨not_le.mp hcap, not_le.mp hcount, v, hv, (Host.Outcome.next.inj h).symm⟩

theorem hostAwait_of_phase {s done : State} {p : Phase} (hp : s.phase = some p) :
    hostAwait s done = if p.quiescent = true then .next done else blockStep s := by
  simp only [hostAwait, hp]

/-- A wait that answers a next state ends where the block is quiescent, else the block has stepped (R133). -/
theorem hostAwait_cases {s done t : State} (h : hostAwait s done = .next t) :
    ∃ p, s.phase = some p ∧
      ((p.quiescent = true ∧ t = done) ∨ (¬p.quiescent = true ∧ blockStep s = .next t)) := by
  cases hp : s.phase with
  | none => rw [hostAwait_of_reserved hp] at h; cases h
  | some p =>
    rw [hostAwait_of_phase hp] at h
    split at h
    · next quiescent => exact ⟨p, rfl, .inl ⟨quiescent, (Host.Outcome.next.inj h).symm⟩⟩
    · next busy => exact ⟨p, rfl, .inr ⟨busy, h⟩⟩

section slots
variable {r : Request} {b : Byte} {s s1 : State}

/-- A presented word overwrites an unsent frame where it is accepted, and leaves it where the block is busy. -/
theorem Unsent.presentWord {w : Word64} (h : Unsent r b s) (hstep : presentWord w s = .next s1) (b' : Byte) :
    ∃ t1, presentWord w (s.withFrame (frameCells r b')) = .next t1 ∧ SameButByte0 s1 t1 := by
  obtain ⟨r0, b0, legal, hword⟩ := presentWord_of_cfg w s.cfg
  rw [hword s rfl] at hstep
  rw [hword (s.withFrame (frameCells r b')) rfl]
  obtain ⟨p, hp, hf, ⟨quiescent, rfl⟩ | ⟨busy, rfl⟩⟩ := present_cases hstep
  · have hlatch : latch r0 b0 (s.withFrame (frameCells r b')) = { latch r0 b0 s with st := s.st } := by
      rw [latch_eq (frameCells_whole r b'), latch_eq (h.frame ▸ frameCells_whole r b)]
      rfl
    refine ⟨accept r0 b0 legal s, ?_, .refl _⟩
    rw [← accept_eq_of_latch hlatch]
    exact present_quiescent (s := s.withFrame (frameCells r b')) hp quiescent hf r0 b0 legal
  · exact Unsent.outcome (h.congr rfl rfl rfl)
      (present_busy (s := s.withFrame (frameCells r b')) hp busy hf r0 b0 legal)

/-- A waiting host's step: the end of the wait, or a block step with the wait kept. -/
theorem Unsent.hostAwait {done : State} (h : Unsent r b s) (hdone : Unsent r b done)
    (hstep : hostAwait s done = .next s1) (b' : Byte) :
    ∃ t1, hostAwait (s.withFrame (frameCells r b')) (done.withFrame (frameCells r b')) = .next t1 ∧
      SameButByte0 s1 t1 := by
  obtain ⟨p, hp, hends⟩ := hostAwait_cases hstep
  rw [hostAwait_of_phase (s := s.withFrame (frameCells r b')) hp]
  rcases hends with ⟨quiescent, rfl⟩ | ⟨busy, hblock⟩
  · exact hdone.outcome (if_pos quiescent)
  · rw [if_neg busy]
    exact h.blockStep hblock b'

/-- A host's slot is taken with any byte 0 of an unsent frame, and with the same outcome but for that byte. -/
theorem Unsent.hostSlot {i : HostInput} (h : Unsent r b s) (hstep : hostSlot i s = .next s1) (b' : Byte) :
    ∃ t1, hostSlot i (s.withFrame (frameCells r b')) = .next t1 ∧ SameButByte0 s1 t1 := by
  cases i with
  | request w => exact h.presentWord hstep b'
  | reset => exact ⟨s1, hstep, .refl s1⟩
  | readStatus =>
    cases hstep
    exact Unsent.outcome (h.congr rfl rfl rfl) rfl
  | readResp i =>
    obtain ⟨hcap, hcount, v, hread, rfl⟩ := hostReadResp_cases hstep
    exact Unsent.outcome (h.congr rfl rfl rfl)
      (hostReadResp_written (s := s.withFrame (frameCells r b')) hcap hcount hread)
  | idle => exact h.blockStep hstep b'
  | await =>
    exact Unsent.hostAwait (s := { s with host := .await :: s.host }) (h.congr rfl rfl rfl) h hstep b'

end slots

/-- Settles O56: acceptance writes the caller's byte to `FRAME[0]` and looks at it nowhere, and every step from an
unsent frame is made with any byte 0. -/
theorem callerByteZeroIsNeverSeen : Obligations.CallerByteZeroIsNeverSeen := by
  refine ⟨fun s s1 r b b' legal whole h => present_callerByte whole h b', fun s t s1 same hstep => ?_⟩
  rcases same.eq_or_unsent with rfl | ⟨r, b, b', unsent, rfl⟩
  · exact ⟨s1, hstep, .refl s1⟩
  cases hhost : s.host with
  | nil =>
    rw [step_of_no_input hhost] at hstep
    rw [step_of_no_input (s := s.withFrame (frameCells r b')) hhost]
    exact unsent.blockStep hstep b'
  | cons i rest =>
    rw [step_of_input hhost] at hstep
    rw [step_of_input (s := s.withFrame (frameCells r b')) hhost]
    have unsent' : Unsent r b { s with host := rest } := unsent.congr rfl rfl rfl
    exact unsent'.hostSlot hstep b'

end Sys2Proof.Machine
end

section
/-! SUPPORT. Presenting a request (R75, R76): acceptance latches, clears and checks whatever the form, a word is
accepted by its fields, a busy block faults, and a quiescent block keeps its result. -/

namespace Sys2Proof.Machine

/-! ### What acceptance latches and what its checks leave -/

section latched
variable {r : Request} {b0 : Byte} {s x : State}

theorem latched_latch (r : Request) (b0 : Byte) (s : State) : Latched r b0 s (latch r b0 s) where
  req := rfl
  frame a := by
    simp only [latch_frame, Memory.read_write]
    grind
  resp _ := rfl
  count := rfl
  valid := rfl
  matched := rfl
  dl := rfl
  ack1TO := rfl
  ack2TO := rfl
  sawTerm := rfl
  fault := rfl
  frameOut := rfl
  cfg := rfl
  host := rfl
  replies := rfl

/-- The checks of acceptance write `ST`, `ERR`, `PRECHECK_WARN`, TRACE and the environment alone (R75, R84). -/
theorem Latched.checks (h : Latched r b0 s x) (c e : BitVec 4) (warn : Bool) (tr : List Event) (env : Env) :
    Latched r b0 s { x with st := c, err := e, precheckWarn := warn, trace := tr, env := env } :=
  { h with req := h.req }

theorem Latched.precheck (h : Latched r b0 s x) : Latched r b0 s (precheck x) := by
  rcases precheck_cases x with ⟨-, hpre⟩ | ⟨-, hpre⟩ <;> rw [hpre] <;> exact h.checks ..

theorem accept_latched (r : Request) (b0 : Byte) (legal : Bool) (s : State) :
    Latched r b0 s (accept r b0 legal s) := by
  have latched := latched_latch r b0 s
  have asked : Latched r b0 s (latch r b0 s).callReady := latched.checks ..
  rcases accept_cases r b0 legal s with ⟨-, h⟩ | ⟨-, -, h⟩ | ⟨-, -, -, h⟩ | ⟨-, -, -, h⟩ <;> rw [h]
  · exact latched.checks ..
  · exact asked.checks ..
  · exact asked.precheck.checks ..
  · exact asked.checks ..

end latched

/-- What the pre-check leaves, by the level it reads (R84). -/
theorem precheck_eq (s : State) : precheck s =
    { s.callReadLine .ack with precheckWarn := s.precheckWarn || !s.lineAnswer .ack } := by
  rcases precheck_cases s with ⟨hlow, h⟩ | ⟨hhigh, h⟩ <;> rw [h]
  · rw [show s.lineAnswer .ack = false from hlow, Bool.not_false, Bool.or_true]
    rfl
  · rw [show s.lineAnswer .ack = true from Bool.not_eq_false _ ▸ hhigh, Bool.not_true, Bool.or_false]
    rfl

/-- The checks of acceptance in their order: legality, the transport, and the pre-check of an `AckAware` request
(R75, R119). -/
theorem accept_checked (r : Request) (b0 : Byte) (legal : Bool) (s : State) :
    Checked r.policy legal s (accept r b0 legal s) := by
  have answer : (latch r b0 s).readyAnswer = s.env.ready.headD (Config.freeReady s.trace.length) := rfl
  unfold Checked
  rw [← answer]
  rcases accept_cases r b0 legal s with ⟨rfl, h⟩ | ⟨rfl, hready, h⟩ | ⟨rfl, hready, hpolicy, h⟩ |
    ⟨rfl, hready, hpolicy, h⟩ <;> rw [h]
  · exact ⟨rfl, rfl, rfl, rfl, rfl⟩
  · simp [hready, Phase.code, FailCode.code]
  · have level : (latch r b0 s).callReady.lineAnswer .ack =
        s.env.ackLine.headD (Config.freeLine (s.trace.length + 1) .ack) := by simp [State.lineAnswer]
    simp [hready, hpolicy, precheck_eq, level, Env.dropLine, Phase.code, FailCode.code]
  · simp [hready, hpolicy, Phase.code, FailCode.code]

/-- What the checks leave does not depend on the host's list. -/
theorem checked_setHost (policy : Policy) (legal : Bool) (s t : State) (hs : List HostInput) :
    Checked policy legal { s with host := hs } t ↔ Checked policy legal s t := .rfl

/-! ### A request in a ready state -/

theorem present_ready {s : State} (ready : Ready s) (r : Request) (b0 : Byte) (legal : Bool) :
    present r b0 legal s = .next (accept r b0 legal s) := by
  obtain ⟨p, hp, quiescent, hf⟩ := ready
  exact present_quiescent hp quiescent hf r b0 legal

/-- Every form is accepted in every ready state, as legal exactly where it is well-formed (R75, R80 to R83). -/
theorem exec_accepted {s : State} (ready : Ready s) (i : Instr) :
    ∃ t, exec i s = .next t ∧ Latched (Request.ofInstr i) (callerByte i) s t ∧
      Checked (Request.ofInstr i).policy (i.wf s.cfg.cap) s t := by
  rw [exec_eq_present, rowCondition_eq_wf, present_ready ready]
  exact ⟨_, rfl, accept_latched .., accept_checked ..⟩

/-- Settles O13: the form's fields are those latched, and it is well-formed where the sum fits. -/
theorem execWIsAccepted : Obligations.ExecWIsAccepted :=
  fun _ policy base addr b0 opc arg1 arg2 ready => exec_accepted ready (.execW policy base addr b0 opc arg1 arg2)

/-- Settles O14: as for `EXEC.W`, with the conditions on the count. -/
theorem execRIsAccepted : Obligations.ExecRIsAccepted := by
  intro s policy n base addr b0 opc arg1 arg2 ready
  have legal : decide (1 ≤ n.toNat ∧ n.toNat ≤ s.cfg.cap ∧ addr.toNat + base.toNat ≤ 255) =
      (Instr.execR policy n base addr b0 opc arg1 arg2).wf s.cfg.cap := by
    rw [Bool.eq_iff_iff, decide_eq_true_iff, Instr.wf_execR]
  rw [legal]
  exact exec_accepted ready (.execR policy n base addr b0 opc arg1 arg2)

/-- Settles O15: as for `EXEC.W`, with any count. -/
theorem execTIsAccepted : Obligations.ExecTIsAccepted :=
  fun _ policy n base addr b0 opc arg1 arg2 ready =>
    exec_accepted ready (.execT policy n base addr b0 opc arg1 arg2)

/-- Settles O16: as for `EXEC.W`, with the fields of a probe. -/
theorem validateIsAccepted : Obligations.ValidateIsAccepted :=
  fun _ policy base addr b0 opc arg1 arg2 ready => exec_accepted ready (.validate policy base addr b0 opc arg1 arg2)

/-! ### A word in a ready state -/

/-- The fields of a form's word are the fields of the form (R64). -/
theorem ofWord_encode (i : Instr) : Request.ofWord (encode i) = Request.ofInstr i := by
  cases i <;> simp [Request.ofWord, Request.ofInstr, encode]

theorem fieldB0_encode_eq (i : Instr) : fieldB0 (encode i) = callerByte i := by
  cases i <;> simp [callerByte, encode]

/-- A word is presented by its own fields, as legal exactly where it decodes (R68, R75). -/
theorem presentWord_eq (w : Word64) (s : State) :
    presentWord w s = present (Request.ofWord w) (fieldB0 w) (decode s.cfg.cap w).isSome s := by
  cases h : decode s.cfg.cap w with
  | none => exact presentWord_of_invalid h
  | some i =>
    obtain ⟨rfl, wf⟩ := decode_eq_some.mp h
    rw [presentWord_of_decode h, exec_eq_present, rowCondition_eq_wf, wf, ofWord_encode, fieldB0_encode_eq]
    rfl

/-- No move of the block raises `BUS_UNAVAILABLE` (R115, R119). -/
theorem BlockMove.keeps_busUnavailable {s t : State} {p q : Phase} (h : BlockMove s p q t)
    (code : t.err = FailCode.busUnavailable.code) : s.err = FailCode.busUnavailable.code := by
  cases h with
  | verifyTimeout | notSent | shortWaitFailed | longWaitTimeout | readFailed | overflow =>
    rw [State.raise_err, FailCode.code_inj] at code
    cases code
  | sent _ _ _ _ _ eq =>
    rw [eq] at code
    exact code
  | written _ _ ended | waitLong _ _ ended =>
    obtain ⟨b, rfl⟩ := ended.eq
    exact code
  | countReached _ stored | countAgain _ stored | trailing _ stored =>
    rw [stored.eq] at code
    exact code
  | termAgain _ stored =>
    rw [stored.eq] at code
    simpa using code
  | drive | verifyHit | verifyAgain | shortWaitAgain | longWaitHit | longWaitAgain | succeeded | failed =>
    exact code

/-- A step that brings up `BUS_UNAVAILABLE` presents a request (R75, R119). -/
theorem step_busUnavailable {s t : State} (h : step s = .next t) (code : t.err = FailCode.busUnavailable.code) :
    s.err = FailCode.busUnavailable.code ∨ ∃ w rest, s.host = .request w :: rest := by
  rcases step_cases h with ⟨rest, hblock, -⟩ | ⟨w, rest, -, -, -, hhost, -, -⟩ | ⟨rest, -, rfl⟩ |
    ⟨rest, reply, -, rfl⟩ | ⟨rest, -, -, -, -, rfl⟩
  · obtain ⟨p, -, -, ⟨-, rfl⟩ | ⟨q, move⟩⟩ := blockStep_cases hblock
    · exact .inl code
    · exact .inl (move.keeps_busUnavailable code)
  · exact .inr ⟨w, rest, hhost⟩
  · exact absurd (FailCode.code_inj (e := .none).mp code) (by decide)
  · exact .inl code
  · exact .inl code

/-- Settles O12: the step presents the word by its fields; and only acceptance asks the transport. -/
theorem acceptanceOfAnyWord : Obligations.AcceptanceOfAnyWord := by
  refine ⟨fun s w rest ready hhost => ?_, fun s t => step_busUnavailable⟩
  have ready' : Ready { s with host := rest } := ready
  rw [step_of_request hhost, presentWord_eq, present_ready ready', ← fieldPolicy_eq]
  exact ⟨_, rfl, accept_latched (Request.ofWord w) _ _ _,
    (checked_setHost ..).mp (accept_checked (Request.ofWord w) _ _ _)⟩

/-- Settles O6: `decode` is computed on the seven words. -/
theorem specWordsDecode : Obligations.SpecWordsDecode := by
  unfold Obligations.SpecWordsDecode
  decide

/-! ### A request while busy or faulted -/

section faulted
variable {t : State} {p : Phase} (hp : t.phase = some p) (hf : t.fault = true)
include hp hf

theorem blockStep_of_fault : blockStep t = .fault .concurrentRequest := by simp [blockStep, hp, hf]

theorem present_of_fault (r : Request) (b0 : Byte) (legal : Bool) :
    present r b0 legal t = .fault .concurrentRequest := by simp [present, hp, hf]

end faulted

/-- Settles O17: a presented word and an executed form are some `present`, which a busy block answers with `FAULT`
set, and a faulted one, as every block step, with the model fault. -/
theorem busyRequestIsAModelFault : Obligations.BusyRequestIsAModelFault := by
  refine ⟨fun s p w rest hp busy hf hhost => ⟨?_, fun i => ?_⟩,
    fun t p hp hf => ⟨fun hhost => ?_, fun rest hhost => ?_, fun w rest hhost => ?_, fun i => ?_⟩⟩
  · rw [step_of_request hhost, presentWord_eq]
    exact present_busy (s := { s with host := rest }) hp busy hf ..
  · rw [exec_eq_present]
    exact present_busy hp busy hf ..
  · rw [step_of_no_input hhost]
    exact blockStep_of_fault hp hf
  · rw [step_of_input hhost]
    exact blockStep_of_fault (t := { t with host := rest }) hp hf
  · rw [step_of_request hhost, presentWord_eq]
    exact present_of_fault (t := { t with host := rest }) hp hf ..
  · rw [exec_eq_present]
    exact present_of_fault hp hf ..

/-! ### The result of a quiescent block -/

/-- In a quiescent state a step that is no request and no reset changes the host's list and its replies alone
(R129). -/
theorem step_of_quiescent {s t : State} {p : Phase} (hp : s.phase = some p) (quiescent : p.quiescent = true)
    (noRequest : ∀ w rest, s.host ≠ .request w :: rest) (noReset : ∀ rest, s.host ≠ .reset :: rest)
    (h : step s = .next t) : t = { s with host := t.host, replies := t.replies } := by
  rcases step_cases h with ⟨rest, hblock, -⟩ | ⟨w, rest, -, -, -, hhost, -, -⟩ | ⟨rest, hhost, -⟩ |
    ⟨rest, reply, -, rfl⟩ | ⟨rest, -, -, -, -, rfl⟩
  · obtain ⟨p', hp', -, ⟨-, rfl⟩ | ⟨q, move⟩⟩ := blockStep_cases hblock
    · rfl
    · obtain rfl : p' = p := Option.some.inj (hp'.symm.trans hp)
      simp [move.busy] at quiescent
  · exact absurd hhost (noRequest w rest)
  · exact absurd hhost (noReset rest)
  · rfl
  · rfl

/-- Settles O36: what such a step leaves alone holds the result, the state and TRACE. -/
theorem resultIsFinalWhenQuiescent : Obligations.ResultIsFinalWhenQuiescent := by
  intro s t p hp quiescent noRequest noReset h
  rw [step_of_quiescent hp quiescent noRequest noReset h]
  exact ⟨rfl, hp, rfl⟩

end Sys2Proof.Machine
end

section
/-! SUPPORT. Whole transactions in a cooperating environment (R78 to R83): one lemma for each step that goes on
without a failure or a timeout, and the four forms put together from them. -/

namespace Sys2Proof.Machine

/-! ### A transaction on its course -/

/-- The transaction of `r` has come to `p` without a failure or a timeout, under the parameters `c`, with an idle host:
`e` holds the answers still to come, `tr` is TRACE, and `got` are the bytes received, with a terminator among them
where `saw` is set. -/
structure OnCourse (c : Params) (r : Request) (warn : Bool) (p : Phase) (e : Env) (tr : List Event)
    (got : List Byte) (saw : Bool) (s : State) : Prop where
  st : s.st = p.code
  err : s.err = FailCode.none.code
  fault : s.fault = false
  host : s.host = []
  cfg : s.cfg = c
  req : s.req = some r
  frame1 : s.readFrame 1 = some r.opc
  frame2 : s.readFrame 2 = some r.arg1
  frame3 : s.readFrame 3 = some r.arg2
  count : s.count.toNat = got.length
  resp : ∀ i : Nat, s.resp.read i = got[i]?
  sawTerm : s.sawTerm = saw
  matched : s.matched = false
  ack1TO : s.ack1TO = false
  ack2TO : s.ack2TO = false
  precheckWarn : s.precheckWarn = warn
  trace : s.trace = tr
  env : ∃ l, s.env = { e with elapsed := l }

section course
variable {c : Params} {r : Request} {warn saw : Bool} {p : Phase} {e : Env} {tr : List Event} {got : List Byte}
  {s : State} {v : Bool}

theorem OnCourse.phase (h : OnCourse c r warn p e tr got saw s) : s.phase = some p :=
  State.phase_of (by rw [h.err]; exact errLegal_code _) h.st

theorem OnCourse.step_eq (h : OnCourse c r warn p e tr got saw s) : step s = blockStep s :=
  step_of_no_input h.host

theorem OnCourse.withTrace (h : OnCourse c r warn p e tr got saw s) {tr' : List Event} (eq : tr = tr') :
    OnCourse c r warn p e tr' got saw s :=
  eq ▸ h

theorem OnCourse.goto (h : OnCourse c r warn p e tr got saw s) (q : Phase) :
    OnCourse c r warn q e tr got saw (s.goto q) :=
  { h with st := rfl }

theorem OnCourse.armDeadline (h : OnCourse c r warn p e tr got saw s) (d : Nat) :
    OnCourse c r warn p e tr got saw (s.armDeadline d) :=
  { h with st := h.st }

theorem OnCourse.setFrameOut (h : OnCourse c r warn p e tr got saw s) (b : Bool) :
    OnCourse c r warn p e tr got saw (s.setFrameOut b) :=
  { h with st := h.st }

/-! ### The port calls -/

theorem OnCourse.callSetLine (h : OnCourse c r warn p e tr got saw s) (l : Line) (v : Bool) :
    OnCourse c r warn p e (tr ++ [.setLine l v]) got saw (s.callSetLine l v) :=
  { h with trace := by rw [State.callSetLine_trace, h.trace] }

theorem OnCourse.callNow (h : OnCourse c r warn p e tr got saw s) :
    OnCourse c r warn p e (tr ++ [.now s.nowAnswer]) got saw s.callNow :=
  { h with
    trace := by rw [State.callNow_trace, h.trace]
    env := by
      obtain ⟨l, henv⟩ := h.env
      exact ⟨l.tail, by rw [State.callNow_env, henv]⟩ }

theorem OnCourse.callReadLine (h : OnCourse c r warn p e tr got saw s) {l : Line} (answer : s.lineAnswer l = v) :
    OnCourse c r warn p (e.dropLine l) (tr ++ [.readLine l v]) got saw (s.callReadLine l) :=
  { h with
    trace := by rw [State.callReadLine_trace, h.trace, answer]
    env := by
      obtain ⟨elapsed, henv⟩ := h.env
      exact ⟨elapsed, by rw [State.callReadLine_env, henv]; cases l <;> rfl⟩ }

/-- The two calls of a poll (R93). -/
theorem OnCourse.afterPoll (h : OnCourse c r warn p e tr got saw s) {l : Line} (answer : s.lineAnswer l = v) :
    OnCourse c r warn p (e.dropLine l) (tr ++ [.readLine l v, .now (s.callReadLine l).nowAnswer]) got saw
      (afterPoll l s) := by
  have polled := (h.callReadLine answer).callNow
  rwa [List.append_assoc] at polled

theorem OnCourse.frameAnswer (h : OnCourse c r warn p e tr got saw s) {rest : List Bool}
    (given : e.frameLine = v :: rest) : s.lineAnswer .frame = v := by
  obtain ⟨l, henv⟩ := h.env
  simp [State.lineAnswer, henv, given]

theorem OnCourse.ackAnswer (h : OnCourse c r warn p e tr got saw s) {rest : List Bool}
    (given : e.ackLine = v :: rest) : s.lineAnswer .ack = v := by
  obtain ⟨l, henv⟩ := h.env
  simp [State.lineAnswer, henv, given]

theorem OnCourse.exchangeAnswer (h : OnCourse c r warn p e tr got saw s) {rest : List Bool}
    (given : e.exchange = v :: rest) : s.exchangeAnswer = v := by
  obtain ⟨l, henv⟩ := h.env
  simp [State.exchangeAnswer, henv, given]

theorem OnCourse.byteAnswer (h : OnCourse c r warn p e tr got saw s) {a : Option Byte} {rest : List (Option Byte)}
    (given : e.byte = a :: rest) : s.byteAnswer = a := by
  obtain ⟨l, henv⟩ := h.env
  simp [State.byteAnswer, henv, given]

/-! ### From the assertion of the frame line to the end of the exchange -/

theorem pollIter_hit {l : Line} (answer : s.lineAnswer l = v) :
    pollIter l v s = some (.hit (s.callReadLine l).nowAnswer) := by
  simp [pollIter, answer]

theorem OnCourse.drive (h : OnCourse c r warn .faDrive e tr got saw s) :
    ∃ n t, step s = .next t ∧
      OnCourse c r warn .faVerify e (tr ++ [.setLine .frame c.frameAssertLevel, .now n]) got saw t := by
  have driven := ((h.callSetLine .frame c.frameAssertLevel).setFrameOut true).callNow
  rw [List.append_assoc, ← h.cfg] at driven
  have hstep : step s = stepFaDrive s := h.step_eq.trans (blockStep_of_phase h.phase h.fault)
  rw [← h.cfg]
  exact ⟨_, _, hstep, (driven.armDeadline _).goto .faVerify⟩

theorem OnCourse.verify (h : OnCourse c r warn .faVerify e tr got saw s) {rest : List Bool}
    (given : e.frameLine = c.frameAssertLevel :: rest) :
    ∃ n t, step s = .next t ∧
      OnCourse c r warn .xmit (e.dropLine .frame) (tr ++ [.readLine .frame c.frameAssertLevel, .now n]) got saw t := by
  have answer := h.frameAnswer given
  refine ⟨_, _, ?_, (h.afterPoll answer).goto .xmit⟩
  rw [h.step_eq, blockStep_of_phase h.phase h.fault]
  simp only [stepFaVerify, h.cfg, pollIter_hit answer]

/-- `XMIT` writes the destination byte over the caller's and sends the frame (R87). -/
theorem stepXmit_of_frame {b1 b2 b3 : Byte} (req : s.req = some r) (frame1 : s.readFrame 1 = some b1)
    (frame2 : s.readFrame 2 = some b2) (frame3 : s.readFrame 3 = some b3) :
    stepXmit s = .next (sendFrame r r.destination b1 b2 b3 (s.writeFrame 0 r.destination)) := by
  have other {i : Fin 4} (hi : i ≠ 0) : (s.writeFrame 0 r.destination).readFrame i = s.readFrame i :=
    Memory.read_write_ne _ _ (Fin.val_ne_of_ne hi)
  have first : (s.writeFrame 0 r.destination).readFrame 0 = some r.destination := Memory.read_write_self ..
  simp only [stepXmit, req, first, other (by decide : (1 : Fin 4) ≠ 0), other (by decide : (2 : Fin 4) ≠ 0),
    other (by decide : (3 : Fin 4) ≠ 0), frame1, frame2, frame3]

theorem OnCourse.xmit (h : OnCourse c r warn .xmit e tr got saw s) {rest : List Bool}
    (given : e.exchange = true :: rest) :
    ∃ n t, step s = .next t ∧ OnCourse c r warn .ackW1 { e with exchange := rest }
      (tr ++ [.exchange r.destination r.opc r.arg1 r.arg2 true, .now n]) got saw t := by
  have answer : (s.writeFrame 0 r.destination).exchangeAnswer = true := h.exchangeAnswer given
  have sent : OnCourse c r warn .xmit { e with exchange := rest }
      (tr ++ [.exchange r.destination r.opc r.arg1 r.arg2 true]) got saw
      ((s.writeFrame 0 r.destination).callExchange r.destination r.opc r.arg1 r.arg2) :=
    { h with
      frame1 := (Memory.read_write_ne _ _ (by decide)).trans h.frame1
      frame2 := (Memory.read_write_ne _ _ (by decide)).trans h.frame2
      frame3 := (Memory.read_write_ne _ _ (by decide)).trans h.frame3
      trace := by
        rw [State.callExchange_trace, State.writeFrame_trace, h.trace, answer]
      env := by
        obtain ⟨l, henv⟩ := h.env
        exact ⟨l, by rw [State.callExchange_env, State.writeFrame_env, henv, given]; rfl⟩ }
  have timed := sent.callNow
  rw [List.append_assoc] at timed
  rcases sendFrame_cases r r.destination r.opc r.arg1 r.arg2 (s.writeFrame 0 r.destination) with
    ⟨refused, -⟩ | ⟨-, hsend⟩
  · exact Bool.noConfusion (refused.symm.trans answer)
  · have hstep : step s = stepXmit s := h.step_eq.trans (blockStep_of_phase h.phase h.fault)
    rw [stepXmit_of_frame h.req h.frame1 h.frame2 h.frame3, hsend] at hstep
    exact ⟨_, _, hstep, (timed.armDeadline _).goto .ackW1⟩

/-! ### The acknowledge waits -/

/-- The short wait ends at once, and a mode `W` transaction with it (R95). -/
theorem OnCourse.shortWait_modeW (h : OnCourse c r warn .ackW1 e tr got saw s) {rest : List Bool}
    (given : e.ackLine = false :: rest) (mode : r.mode = modeW) :
    ∃ n t, step s = .next t ∧
      OnCourse c r warn .deassert (e.dropLine .ack) (tr ++ [.readLine .ack false, .now n]) got saw t := by
  have polled := h.afterPoll (h.ackAnswer given)
  refine ⟨_, _, ?_, polled.goto .deassert⟩
  rw [h.step_eq, blockStep_of_phase h.phase h.fault]
  simp only [stepAckW1, h.req, ackAssertLevel, pollIter_hit (h.ackAnswer given)]
  simp [endShortWait, mode, h.ack1TO]

/-- The short wait ends at once, and the long one begins (R95, R97). -/
theorem OnCourse.shortWait (h : OnCourse c r warn .ackW1 e tr got saw s) {rest : List Bool}
    (given : e.ackLine = false :: rest) (mode : r.mode ≠ modeW) :
    ∃ n t, step s = .next t ∧
      OnCourse c r warn .ackW2 (e.dropLine .ack) (tr ++ [.readLine .ack false, .now n]) got saw t := by
  have polled := h.afterPoll (h.ackAnswer given)
  refine ⟨_, _, ?_, (polled.armDeadline ((s.callReadLine .ack).nowAnswer + r.tAck2 s.cfg)).goto .ackW2⟩
  rw [h.step_eq, blockStep_of_phase h.phase h.fault]
  simp only [stepAckW1, h.req, ackAssertLevel, pollIter_hit (h.ackAnswer given), endShortWait, if_neg mode,
    afterPoll_cfg]

/-- The long wait ends at once, and the read loop begins (R96). -/
theorem OnCourse.longWait (h : OnCourse c r warn .ackW2 e tr got saw s) {rest : List Bool}
    (given : e.ackLine = false :: rest) :
    ∃ n t, step s = .next t ∧
      OnCourse c r warn .read (e.dropLine .ack) (tr ++ [.readLine .ack false, .now n]) got saw t := by
  have polled := h.afterPoll (h.ackAnswer given)
  refine ⟨_, _, ?_, polled.goto .read⟩
  rw [h.step_eq, blockStep_of_phase h.phase h.fault]
  simp only [stepAckW2, ackAssertLevel, pollIter_hit (h.ackAnswer given)]

/-! ### The read loop -/

/-- TRACE of the bytes that the environment gives (R102). -/
def byteCalls (c : Params) (r : Request) (bs : List Byte) : List Event :=
  bs.map fun b => .readByte (r.tByte c) (some b)

/-- A byte that comes while there is room is stored behind those received (R101, R102). -/
theorem OnCourse.stored (h : OnCourse c r warn .read e tr got saw s) {b : Byte} {rest : List (Option Byte)}
    (given : e.byte = some b :: rest) (room : got.length < c.cap) :
    ∃ x, ByteStored s r b x ∧
      OnCourse c r warn .read { e with byte := rest } (tr ++ byteCalls c r [b]) (got ++ [b]) saw x := by
  have answer := h.byteAnswer given
  have stored : ByteStored s r b ((s.callReadByte (r.tByte s.cfg)).push b) :=
    ⟨h.req, answer, by rw [h.count, h.cfg]; exact room, rfl⟩
  refine ⟨_, stored, { h with
    count := by rw [stored.count, h.count, List.length_append]; rfl
    resp := fun i => ?_
    trace := by simp [h.trace, answer, h.cfg, byteCalls]
    env := ?_ }⟩
  · rw [State.push_resp, Memory.read_write, State.callReadByte_count, State.callReadByte_resp, h.count, h.resp]
    grind
  · obtain ⟨l, henv⟩ := h.env
    exact ⟨l, by simp [henv, given]⟩

/-- The step that stores a byte goes on as its mode says (R104, R105). -/
theorem readOne_of_stored {done : Byte → State → State} {b : Byte} {x : State} (stored : ByteStored s r b x) :
    readOne r done s = .next (done b x) := by
  have room : (s.callReadByte (r.tByte s.cfg)).count.toNat < (s.callReadByte (r.tByte s.cfg)).cfg.cap := stored.room
  simp only [readOne, stored.byte, State.append_of_lt b room, stored.eq]

theorem OnCourse.step_modeR (h : OnCourse c r warn .read e tr got saw s) (mode : r.mode = modeR) {b : Byte} {x : State}
    (stored : ByteStored s r b x) : step s = .next (afterByteR r x) := by
  rw [h.step_eq, blockStep_of_phase h.phase h.fault]
  simp only [stepRead, h.req, if_pos mode]
  exact readOne_of_stored stored

theorem OnCourse.step_modeT (h : OnCourse c r warn .read e tr got saw s) (mode : r.mode = modeT) {b : Byte} {x : State}
    (stored : ByteStored s r b x) : step s = .next (afterByteT b x) := by
  have other : ¬r.mode = modeR := by rw [mode]; decide
  rw [h.step_eq, blockStep_of_phase h.phase h.fault]
  simp only [stepRead, h.req, if_neg other, if_pos mode]
  exact readOne_of_stored stored

section byte
variable {b : Byte} {rest : List (Option Byte)} (h : OnCourse c r warn .read e tr got saw s)
  (given : e.byte = some b :: rest)
include h given

/-- The `N`-th byte of a fixed-count read ends it (R104). -/
theorem OnCourse.lastOfCount (mode : r.mode = modeR) (room : got.length < c.cap)
    (last : got.length + 1 = r.n.toNat) :
    ∃ t, step s = .next t ∧ OnCourse c r warn .deassert { e with byte := rest } (tr ++ byteCalls c r [b])
      (got ++ [b]) saw t := by
  obtain ⟨x, stored, course⟩ := h.stored given room
  refine ⟨_, ?_, course.goto .deassert⟩
  rw [h.step_modeR mode stored, afterByteR, if_pos]
  rw [stored.count, h.count, last]

/-- A byte short of the count leaves the block reading (R104). -/
theorem OnCourse.moreOfCount (mode : r.mode = modeR) (room : got.length < c.cap)
    (more : got.length + 1 ≠ r.n.toNat) :
    ∃ t, step s = .next t ∧ OnCourse c r warn .read { e with byte := rest } (tr ++ byteCalls c r [b])
      (got ++ [b]) saw t := by
  obtain ⟨x, stored, course⟩ := h.stored given room
  refine ⟨_, ?_, course.goto .read⟩
  rw [h.step_modeR mode stored, afterByteR, if_neg]
  rwa [stored.count, h.count]

/-- In a terminator read the byte behind the terminator ends it, whatever it is (R105). -/
theorem OnCourse.trailing (mode : r.mode = modeT) (room : got.length < c.cap) (seen : saw = true) :
    ∃ t, step s = .next t ∧ OnCourse c r warn .deassert { e with byte := rest } (tr ++ byteCalls c r [b])
      (got ++ [b]) true t := by
  subst seen
  obtain ⟨x, stored, course⟩ := h.stored given room
  refine ⟨_, ?_, course.goto .deassert⟩
  rw [h.step_modeT mode stored, afterByteT, if_pos course.sawTerm]

/-- Before the terminator a byte that does not fill the buffer leaves the block reading (R105, R106). -/
theorem OnCourse.moreToTerm (mode : r.mode = modeT) (room : got.length + 1 < c.cap) (unseen : saw = false) :
    ∃ t, step s = .next t ∧ OnCourse c r warn .read { e with byte := rest } (tr ++ byteCalls c r [b])
      (got ++ [b]) (decide (b = termByte)) t := by
  subst unseen
  obtain ⟨x, stored, course⟩ := h.stored given (by omega)
  have noted : OnCourse c r warn .read { e with byte := rest } (tr ++ byteCalls c r [b]) (got ++ [b])
      (decide (b = termByte)) (x.noteTerm b) := by
    by_cases hb : b = termByte
    · rw [State.noteTerm, if_pos hb, decide_eq_true hb]
      exact { course with sawTerm := rfl }
    · rw [State.noteTerm, if_neg hb, decide_eq_false hb]
      exact course
  refine ⟨_, ?_, noted.goto .read⟩
  rcases afterByteT_cases b x with ⟨seen, -⟩ | ⟨-, full, -⟩ | ⟨-, -, hend⟩
  · simp [course.sawTerm] at seen
  · rw [course.count, course.cfg, List.length_append, List.length_singleton] at full
    omega
  · rw [h.step_modeT mode stored, hend]

end byte

/-- Bytes that do not end the read are all stored, in arrival order: those short of the count, or those before the
terminator that leave room for one more (R104, R105). -/
theorem OnCourse.readOn {rest : List (Option Byte)} {todo : List Byte}
    (h : OnCourse c r warn .read e tr got false s) (given : e.byte = todo.map some ++ rest)
    (room : got.length + todo.length < c.cap)
    (more : (r.mode = modeR ∧ got.length + todo.length < r.n.toNat) ∨ (r.mode = modeT ∧ termByte ∉ todo)) :
    ∃ t, run todo.length s = .next t ∧
      OnCourse c r warn .read { e with byte := rest } (tr ++ byteCalls c r todo) (got ++ todo) false t := by
  induction todo generalizing e tr got s with
  | nil =>
    obtain rfl : e.byte = rest := given
    exact ⟨s, rfl, by simpa [byteCalls] using h⟩
  | cons b todo ih =>
    simp only [List.length_cons, List.mem_cons, not_or] at room more
    obtain ⟨u, hstep, course⟩ : ∃ u, step s = .next u ∧ OnCourse c r warn .read
        { e with byte := todo.map some ++ rest } (tr ++ byteCalls c r [b]) (got ++ [b]) false u := by
      rcases more with ⟨mode, more⟩ | ⟨mode, hb, -⟩
      · exact h.moreOfCount given mode (by omega) (by omega)
      · have course := h.moreToTerm given mode (by omega) rfl
        rwa [decide_eq_false (Ne.symm hb)] at course
    obtain ⟨t, hrun, done⟩ := ih course rfl (by simp; omega)
      (more.imp (fun ⟨mode, more⟩ => ⟨mode, by simp; omega⟩) fun ⟨mode, _, hterm⟩ => ⟨mode, hterm⟩)
    exact ⟨t, (run_succ _ hstep).trans hrun, by simpa [byteCalls] using done⟩

/-! ### The end of the transaction -/

/-- A transaction that has ended in `COMPLETE`, with its result (R78): the bytes `got`, `MATCH` as `m`, and `unread` the
bytes the environment has not given. -/
structure Completed (warn : Bool) (tr : List Event) (got : List Byte) (saw m : Bool) (unread : List (Option Byte))
    (t : State) : Prop where
  st : t.st = 8#4
  valid : t.valid = true
  err : t.err = 0#4
  count : t.count.toNat = got.length
  resp : ∀ i : Nat, t.resp.read i = got[i]?
  ack1TO : t.ack1TO = false
  ack2TO : t.ack2TO = false
  precheckWarn : t.precheckWarn = warn
  sawTerm : t.sawTerm = saw
  matched : t.matched = m
  frameOut : t.frameOut = false
  unread : t.env.byte = unread
  trace : t.trace = tr

/-- What a success leaves in `MATCH`: 0, but in a `VALIDATE` whether the first byte is the address (R90, R110). -/
def CheckLeaves (r : Request) (got : List Byte) (m : Bool) : Prop :=
  (r.kind ≠ kindValidate ∧ m = false) ∨ (r.kind = kindValidate ∧ ∃ b, got[0]? = some b ∧ m = decide (b = r.addr))

theorem OnCourse.matchAfter_eq (h : OnCourse c r warn p e tr got saw s) {m : Bool}
    (check : CheckLeaves r got m) :
    matchAfter s = some m := by
  rcases check with ⟨kind, rfl⟩ | ⟨kind, b, hb, rfl⟩
  · simp [matchAfter, h.req, kind, h.matched]
  · simp [matchAfter, h.req, kind, h.resp, hb]

/-- `DEASSERT` releases the frame line and settles a success (R90). -/
theorem OnCourse.finish (h : OnCourse c r warn .deassert e tr got saw s) {m : Bool}
    (check : CheckLeaves r got m) :
    ∃ t, step s = .next t ∧
      Completed warn (tr ++ [.setLine .frame (!c.frameAssertLevel)]) got saw m e.byte t := by
  have hstep : step s = stepDeassert s := h.step_eq.trans (blockStep_of_phase h.phase h.fault)
  rw [stepDeassert_of_success h.err (h.matchAfter_eq check)] at hstep
  obtain ⟨l, henv⟩ := h.env
  have unread : s.env.byte = e.byte := by rw [henv]
  exact ⟨_, hstep, { h with
    st := rfl
    valid := rfl
    matched := rfl
    frameOut := rfl
    unread := unread
    trace := by rw [← h.trace, ← h.cfg]; rfl }⟩

end course

/-! ### Whole runs -/

/-- Two runs, one behind the other. -/
theorem run_trans {s t u : State} {j k : Nat} (h : run j s = .next t) (h' : run k t = .next u) :
    run (j + k) s = .next u := (run_add j k h).trans h'

theorem run_one {s t : State} (h : step s = .next t) : run 1 s = .next t := run_succ 0 h

/-- The port calls of the request `r` up to the end of its acknowledge waits. -/
def openingOf (r : Request) (pre level : Bool) (n1 n2 n3 : Nat) (waits : List Nat) : List Event :=
  opening r.policy pre level r.destination r.opc r.arg1 r.arg2 n1 n2 n3 waits

section form
variable {s : State} {i : Instr} {pre : Bool} {waits : Nat}

/-- An accepted request whose checks have sent it to `FA_DRIVE` is on its course (R75). -/
theorem Latched.onCourse {r : Request} {b0 : Byte} {t : State} (latched : Latched r b0 s t) (ready : Ready s)
    (hhost : s.host = []) (hst : t.st = Phase.faDrive.code) (herr : t.err = FailCode.none.code) :
    OnCourse s.cfg r t.precheckWarn .faDrive t.env t.trace [] false t where
  st := hst
  err := herr
  fault := by
    obtain ⟨p, -, -, fault⟩ := ready
    exact latched.fault.trans fault
  host := latched.host.trans hhost
  cfg := latched.cfg
  req := latched.req
  frame1 := latched.frame 1
  frame2 := latched.frame 2
  frame3 := latched.frame 3
  count := by rw [latched.count]; rfl
  resp := latched.resp
  sawTerm := latched.sawTerm
  matched := latched.matched
  ack1TO := latched.ack1TO
  ack2TO := latched.ack2TO
  precheckWarn := rfl
  trace := rfl
  env := ⟨_, rfl⟩

/-- The checks of a legal request that the environment lets pass, its pre-check included (R75, R84). -/
theorem Checked.passed {policy : Policy} {t : State} (h : Checked policy true s t)
    (coop : Cooperates policy pre waits s) :
    t.st = Phase.faDrive.code ∧ t.err = FailCode.none.code ∧ t.precheckWarn = warnOf policy pre ∧
      t.trace = s.trace ++ [.ready true] ++ (precheckReads policy pre).map (.readLine .ack ·) ∧
      t.env.frameLine = s.env.frameLine ∧ t.env.exchange = s.env.exchange ∧ t.env.byte = s.env.byte ∧
      ∃ rest, t.env.ackLine = List.replicate waits false ++ rest := by
  obtain ⟨readyRest, hready⟩ := coop.ready
  obtain ⟨ackRest, hack⟩ := coop.ackLine
  simp only [Checked, hready, List.headD_cons, Bool.true_eq_false, if_false] at h
  obtain ⟨hst, herr, checks⟩ := h
  refine ⟨hst, herr, ?_⟩
  cases policy with
  | default =>
    obtain ⟨hwarn, htrace, henv⟩ := checks
    rw [henv]
    exact ⟨hwarn, by simpa [precheckReads] using htrace, rfl, rfl, rfl, ackRest, hack⟩
  | ackAware =>
    rw [hack] at checks
    obtain ⟨hwarn, htrace, henv⟩ := checks
    rw [henv]
    exact ⟨hwarn, by simpa [precheckReads] using htrace, rfl, rfl, rfl, ackRest, rfl⟩

/-- From acceptance to the acknowledge waits: the frame line is asserted, read back, and the frame sent (R85 to
R87). -/
theorem exec_reaches_ackW1 (ready : Ready s) (hhost : s.host = []) (wf : i.wf s.cfg.cap = true)
    (coop : Cooperates (Request.ofInstr i).policy pre waits s) :
    ∃ s1 t n1 n2 n3 e rest, exec i s = .next s1 ∧ run 3 s1 = .next t ∧
      OnCourse s.cfg (Request.ofInstr i) (warnOf (Request.ofInstr i).policy pre) .ackW1 e
        (s.trace ++ openingOf (Request.ofInstr i) pre s.cfg.frameAssertLevel n1 n2 n3 []) [] false t ∧
      e.byte = s.env.byte ∧ e.ackLine = List.replicate waits false ++ rest := by
  obtain ⟨s1, hexec, latched, checked⟩ := exec_accepted ready i
  rw [wf] at checked
  obtain ⟨hst, herr, hwarn, htrace, hframe, hexchange, hbyte, ackRest, hack⟩ := checked.passed coop
  have accepted := latched.onCourse ready hhost hst herr
  rw [hwarn, htrace] at accepted
  obtain ⟨frameRest, hlevel⟩ := coop.frameLine
  obtain ⟨exchangeRest, hok⟩ := coop.exchange
  obtain ⟨n1, s2, step1, driven⟩ := accepted.drive
  obtain ⟨n2, s3, step2, verified⟩ := driven.verify (hframe.trans hlevel)
  obtain ⟨n3, s4, step3, sent⟩ := verified.xmit (hexchange.trans hok)
  exact ⟨s1, s4, n1, n2, n3, _, ackRest, hexec, run_trans (run_trans (run_one step1) (run_one step2)) (run_one step3),
    sent.withTrace (by simp [openingOf, opening]), hbyte, hack⟩

/-- With two acknowledges, a form with a response comes to the read loop (R95 to R97). -/
theorem exec_reaches_read (ready : Ready s) (hhost : s.host = []) (wf : i.wf s.cfg.cap = true)
    (coop : Cooperates (Request.ofInstr i).policy pre 2 s) (mode : (Request.ofInstr i).mode ≠ modeW) :
    ∃ s1 t n1 n2 n3 n4 n5 e, exec i s = .next s1 ∧ run 5 s1 = .next t ∧
      OnCourse s.cfg (Request.ofInstr i) (warnOf (Request.ofInstr i).policy pre) .read e
        (s.trace ++ openingOf (Request.ofInstr i) pre s.cfg.frameAssertLevel n1 n2 n3 [n4, n5]) [] false t ∧
      e.byte = s.env.byte := by
  obtain ⟨s1, s4, n1, n2, n3, e, ackRest, hexec, hrun, sent, hbyte, hack⟩ := exec_reaches_ackW1 ready hhost wf coop
  obtain ⟨n4, s5, step4, short⟩ := sent.shortWait hack mode
  obtain ⟨n5, s6, step5, long⟩ := short.longWait (congrArg List.tail hack)
  exact ⟨s1, s6, n1, n2, n3, n4, n5, _, hexec, run_trans (run_trans hrun (run_one step4)) (run_one step5),
    long.withTrace (by simp [openingOf, opening]), hbyte⟩

end form

/-- Settles O37: the short wait is the last of a form without a response, and `DEASSERT` follows it. -/
theorem execWCompletes : Obligations.ExecWCompletes := by
  intro s policy pre base addr b0 opc arg1 arg2 ready hhost _ sum coop
  have wf : (Instr.execW policy base addr b0 opc arg1 arg2).wf s.cfg.cap = true := destinationFits_iff.mpr sum
  obtain ⟨s1, s4, n1, n2, n3, e, ackRest, hexec, hrun, sent, -, hack⟩ := exec_reaches_ackW1 ready hhost wf coop
  obtain ⟨n4, s5, step4, waited⟩ := sent.shortWait_modeW hack rfl
  obtain ⟨t, step5, done⟩ := waited.finish (m := false) (.inl ⟨show kindExec ≠ kindValidate by decide, rfl⟩)
  refine ⟨s1, t, _, n1, n2, n3, n4, hexec, run_trans (run_trans hrun (run_one step4)) (run_one step5),
    destinationIsTheExactSum _ _ wf, done.st, done.valid, done.err, BitVec.eq_of_toNat_eq done.count, done.ack1TO,
    done.ack2TO, done.precheckWarn, done.sawTerm, done.matched, done.frameOut, ?_⟩
  rw [done.trace]
  simp [openingOf, opening, Request.ofInstr]

/-- A read of exactly the bytes `bs`, of which the last reaches the count, and the end of the transaction (R104). -/
theorem OnCourse.readCount {c : Params} {r : Request} {warn m : Bool} {e : Env} {tr : List Event} {s : State}
    {bs : List Byte} {rest : List (Option Byte)} (h : OnCourse c r warn .read e tr [] false s)
    (given : e.byte = bs.map some ++ rest) (mode : r.mode = modeR) (count : bs.length = r.n.toNat)
    (pos : 1 ≤ r.n.toNat) (room : r.n.toNat ≤ c.cap) (check : CheckLeaves r bs m) :
    ∃ t, run (bs.length + 1) s = .next t ∧
      Completed warn (tr ++ byteCalls c r bs ++ [.setLine .frame (!c.frameAssertLevel)]) bs false m rest t := by
  obtain ⟨init, b, rfl⟩ : ∃ init b, bs = init ++ [b] :=
    ⟨_, _, (List.dropLast_append_getLast (List.ne_nil_of_length_pos (by omega))).symm⟩
  rw [List.length_append, List.length_singleton] at count ⊢
  rw [List.map_append, List.append_assoc] at given
  obtain ⟨u, hrun, reading⟩ := h.readOn given (by simp; omega) (.inl ⟨mode, by simp; omega⟩)
  obtain ⟨v, hlast, last⟩ := reading.lastOfCount rfl mode (by simp; omega) (by simpa using count)
  obtain ⟨t, hend, done⟩ := last.finish check
  refine ⟨t, run_trans (run_trans hrun (run_one hlast)) (run_one hend), ?_⟩
  simpa [byteCalls] using done

/-- Settles O38: the read of `N` bytes behind the two waits. -/
theorem execRCompletes : Obligations.ExecRCompletes := by
  intro s policy pre n base addr b0 opc arg1 arg2 bs rest ready hhost _ sum count pos room coop given
  have wf : (Instr.execR policy n base addr b0 opc arg1 arg2).wf s.cfg.cap = true :=
    Instr.wf_execR.mpr ⟨pos, room, sum⟩
  obtain ⟨s1, u, n1, n2, n3, n4, n5, e, hexec, hrun, reading, hbyte⟩ :=
    exec_reaches_read ready hhost wf coop (show modeR ≠ modeW by decide)
  obtain ⟨t, hread, done⟩ := reading.readCount (m := false) (hbyte.trans given) rfl count pos room
    (.inl ⟨show kindExec ≠ kindValidate by decide, rfl⟩)
  have length : 6 + n.toNat = 5 + (bs.length + 1) := by omega
  exact ⟨s1, t, _, n1, n2, n3, n4, n5, hexec, length ▸ run_trans hrun hread, destinationIsTheExactSum _ _ wf, done.st,
    done.valid, done.err, done.count.trans count, done.resp, done.ack1TO, done.ack2TO, done.precheckWarn,
    done.sawTerm, done.matched, done.frameOut, done.unread, done.trace⟩

/-- Settles O40: a read of one byte, which the check at the end compares with the assigned address. -/
theorem validateCompletes : Obligations.ValidateCompletes := by
  intro s policy pre base addr b0 opc arg1 arg2 b rest ready hhost _ sum coop given
  have wf : (Instr.validate policy base addr b0 opc arg1 arg2).wf s.cfg.cap = true := destinationFits_iff.mpr sum
  obtain ⟨s1, u, n1, n2, n3, n4, n5, e, hexec, hrun, reading, hbyte⟩ :=
    exec_reaches_read ready hhost wf coop (show modeR ≠ modeW by decide)
  have room : 1 ≤ s.cfg.cap := le_trans (by decide) s.cfg.cap_bounds.1
  obtain ⟨t, hread, done⟩ := reading.readCount (bs := [b]) (m := decide (b = addr)) (hbyte.trans given) rfl rfl
    le_rfl room (.inr ⟨rfl, b, rfl, rfl⟩)
  refine ⟨s1, t, _, n1, n2, n3, n4, n5, hexec, run_trans hrun hread, destinationIsTheExactSum _ _ wf, done.st,
    done.valid, done.err, BitVec.eq_of_toNat_eq done.count, done.resp, done.ack1TO, done.ack2TO, done.precheckWarn,
    done.sawTerm, ?_, done.frameOut, done.unread, ?_⟩
  · rw [done.matched, decide_eq_true_iff]
  · rw [done.trace, List.append_assoc]
    rfl

/-- Settles O39: the bytes before the terminator, the terminator, and the byte behind it. -/
theorem execTCompletes : Obligations.ExecTCompletes := by
  intro s policy pre n base addr b0 opc arg1 arg2 c s0 rest ready hhost _ sum noTerm room coop given
  have wf : (Instr.execT policy n base addr b0 opc arg1 arg2).wf s.cfg.cap = true := destinationFits_iff.mpr sum
  obtain ⟨s1, u, n1, n2, n3, n4, n5, e, hexec, hrun, reading, hbyte⟩ :=
    exec_reaches_read ready hhost wf coop (show modeT ≠ modeW by decide)
  rw [List.map_append, List.append_assoc] at given
  obtain ⟨v, hbefore, before⟩ := reading.readOn (hbyte.trans given) (by simp; omega) (.inr ⟨rfl, noTerm⟩)
  obtain ⟨w, hterm, seen⟩ := before.moreToTerm rfl rfl (by simp; omega) rfl
  obtain ⟨x, htrail, read⟩ := seen.trailing rfl rfl (by simp; omega) rfl
  obtain ⟨t, hend, done⟩ := read.finish (m := false) (.inl ⟨show kindExec ≠ kindValidate by decide, rfl⟩)
  have hbehind := run_trans (run_one hterm) (run_trans (run_one htrail) (run_one hend))
  have hall := run_trans hrun (run_trans hbefore hbehind)
  have length : 8 + s0.length = 5 + (s0.length + (1 + (1 + 1))) := by omega
  rw [← length] at hall
  have got : [] ++ s0 ++ [0#8] ++ [c] = s0 ++ [0#8, c] := by simp
  rw [got] at done
  refine ⟨s1, t, _, n1, n2, n3, n4, n5, hexec, hall, destinationIsTheExactSum _ _ wf, done.st, done.valid, done.err,
    done.count.trans (by simp), done.resp, done.ack1TO, done.ack2TO, done.precheckWarn, done.sawTerm, done.matched,
    done.frameOut, done.unread, ?_⟩
  rw [done.trace]
  simp [byteCalls, openingOf, Request.ofInstr, Request.tByte]

end Sys2Proof.Machine
end

section
/-! SUPPORT. The frame symmetry law (R92): the line is driven asserted by the move from `FA_DRIVE` and deasserted
by the moves from `DEASSERT`, and every other step drives no line. -/

namespace Sys2Proof.Machine

/-! ### The counts of TRACE -/

section counts
variable (level : Bool) (evs : List Event)

@[simp] theorem nAssert_append (tr : List Event) :
    nAssert level (tr ++ evs) = nAssert level tr + nAssert level evs := List.countP_append

@[simp] theorem nDeassert_append (tr : List Event) :
    nDeassert level (tr ++ evs) = nDeassert level tr + nDeassert level evs := List.countP_append

@[simp] theorem nAssert_nil : nAssert level [] = 0 := rfl

@[simp] theorem nDeassert_nil : nDeassert level [] = 0 := rfl

@[simp] theorem nAssert_assert : nAssert level (.setLine .frame level :: evs) = nAssert level evs + 1 := by
  simp [nAssert]

@[simp] theorem nAssert_deassert : nAssert level (.setLine .frame (!level) :: evs) = nAssert level evs := by
  simp [nAssert]

@[simp] theorem nAssert_now (n : Nat) : nAssert level (.now n :: evs) = nAssert level evs := by simp [nAssert]

@[simp] theorem nDeassert_assert : nDeassert level (.setLine .frame level :: evs) = nDeassert level evs := by
  simp [nDeassert]

@[simp] theorem nDeassert_deassert :
    nDeassert level (.setLine .frame (!level) :: evs) = nDeassert level evs + 1 := by
  simp [nDeassert]

@[simp] theorem nDeassert_now (n : Nat) : nDeassert level (.now n :: evs) = nDeassert level evs := by
  simp [nDeassert]

end counts

/-- By how much the asserts exceed the deasserts in a state of the machine (R92). -/
def outstanding : Phase → Nat
  | .faVerify | .xmit | .ackW1 | .ackW2 | .read | .deassert => 1
  | .idle | .faDrive | .complete | .failed => 0

theorem frameBalance_iff {s : State} : FrameBalance s ↔ ∃ p, s.phase = some p ∧
    nAssert s.cfg.frameAssertLevel s.trace = nDeassert s.cfg.frameAssertLevel s.trace + outstanding p := .rfl

theorem FrameBalance.counts {s : State} {p : Phase} (h : FrameBalance s) (hp : s.phase = some p) :
    nAssert s.cfg.frameAssertLevel s.trace = nDeassert s.cfg.frameAssertLevel s.trace + outstanding p := by
  obtain ⟨p', hp', hcounts⟩ := frameBalance_iff.mp h
  obtain rfl : p' = p := Option.some.inj (hp'.symm.trans hp)
  exact hcounts

theorem outstanding_of_quiescent {p : Phase} (quiescent : p.quiescent = true) : outstanding p = 0 := by
  cases p with
  | idle | complete | failed => rfl
  | faDrive | faVerify | xmit | ackW1 | ackW2 | read | deassert => cases quiescent

theorem outstanding_of_busy {p : Phase} (busy : p.quiescent = false) (driven : p ≠ .faDrive) :
    outstanding p = 1 := by
  cases p with
  | idle | complete | failed => cases busy
  | faDrive => exact absurd rfl driven
  | faVerify | xmit | ackW1 | ackW2 | read | deassert => rfl

/-- Outside `FA_DRIVE` and `DEASSERT` no call drives the frame line, so neither count grows. -/
theorem LineCallsAllowed.nAssert_eq {s t : State} {p : Phase} (h : LineCallsAllowed s t)
    (grows : TraceExtends s t) (hp : s.phase = some p) (notDrive : p ≠ .faDrive) (notRelease : p ≠ .deassert)
    (level : Bool) : nAssert level t.trace = nAssert level s.trace := by
  obtain ⟨evs, htrace⟩ := grows.trace
  have undriven : ∀ e ∈ evs, e ≠ .setLine .frame level := by
    rintro - hmem rfl
    obtain ⟨-, ⟨hphase, -⟩ | ⟨hphase, -⟩⟩ :=
      h (.setLine .frame level) (by rwa [← htrace, List.drop_left])
    · exact notDrive (Option.some.inj (hp.symm.trans hphase))
    · exact notRelease (Option.some.inj (hp.symm.trans hphase))
  have unchanged : nAssert level evs = 0 := by simpa [nAssert, List.countP_eq_zero] using undriven
  calc nAssert level t.trace
      = nAssert level s.trace + nAssert level evs := by rw [← htrace, nAssert_append]
    _ = nAssert level s.trace := by rw [unchanged, Nat.add_zero]

theorem LineCallsAllowed.nDeassert_eq {s t : State} {p : Phase} (h : LineCallsAllowed s t)
    (grows : TraceExtends s t) (hp : s.phase = some p) (notDrive : p ≠ .faDrive) (notRelease : p ≠ .deassert)
    (level : Bool) : nDeassert level t.trace = nDeassert level s.trace :=
  h.nAssert_eq grows hp notDrive notRelease (!level)

/-- A step that drives no line keeps the balance where the same is outstanding behind it. -/
theorem FrameBalance.of_undriven {s t : State} {p q : Phase} (h : FrameBalance s) (hp : s.phase = some p)
    (hq : t.phase = some q) (same : outstanding q = outstanding p) (calls : LineCallsAllowed s t)
    (grows : TraceExtends s t) (notDrive : p ≠ .faDrive) (notRelease : p ≠ .deassert) : FrameBalance t := by
  have asserts := calls.nAssert_eq grows hp notDrive notRelease s.cfg.frameAssertLevel
  have deasserts := calls.nDeassert_eq grows hp notDrive notRelease s.cfg.frameAssertLevel
  refine frameBalance_iff.mpr ⟨q, hq, ?_⟩
  rw [grows.cfg, asserts, deasserts, same]
  exact h.counts hp

/-! ### The steps -/

/-- Only the moves from `FA_DRIVE` and from `DEASSERT` change what is outstanding. -/
theorem BlockMove.outstanding_eq {s t : State} {p q : Phase} (h : BlockMove s p q t) (notDrive : p ≠ .faDrive)
    (notRelease : p ≠ .deassert) : outstanding q = outstanding p := by
  cases h with
  | drive => exact absurd rfl notDrive
  | succeeded | failed => exact absurd rfl notRelease
  | verifyHit | verifyTimeout | verifyAgain | sent | notSent | shortWaitAgain | shortWaitFailed | written | waitLong
  | longWaitHit | longWaitTimeout | longWaitAgain | readFailed | countReached | countAgain | trailing | overflow
  | termAgain => rfl

/-- The move from `FA_DRIVE` adds one assert (R85). -/
theorem BlockMove.frameBalance_of_faDrive {s t : State} {q : Phase} (h : BlockMove s .faDrive q t)
    (balance : FrameBalance s) (hp : s.phase = some .faDrive) : FrameBalance t := by
  have counts := balance.counts hp
  refine frameBalance_iff.mpr ⟨q, h.phase_eq hp, ?_⟩
  cases h with
  | drive => simpa [outstanding] using counts

/-- The moves from `DEASSERT` add one deassert (R90). -/
theorem BlockMove.frameBalance_of_deassert {s t : State} {q : Phase} (h : BlockMove s .deassert q t)
    (balance : FrameBalance s) (hp : s.phase = some .deassert) : FrameBalance t := by
  have counts := balance.counts hp
  refine frameBalance_iff.mpr ⟨q, h.phase_eq hp, ?_⟩
  cases h with
  | succeeded | failed => simpa [outstanding, frameReleased] using counts

theorem blockStep_keeps_frameBalance {s t : State} (balance : FrameBalance s) (h : blockStep s = .next t) :
    FrameBalance t := by
  obtain ⟨p, hp, -, ⟨-, rfl⟩ | ⟨q, move⟩⟩ := blockStep_cases h
  · exact balance
  · by_cases drive : p = .faDrive
    · subst drive
      exact move.frameBalance_of_faDrive balance hp
    · by_cases release : p = .deassert
      · subst release
        exact move.frameBalance_of_deassert balance hp
      · exact balance.of_undriven hp (move.phase_eq hp) (move.outstanding_eq drive release)
          (move.lineCallsAllowed hp) (blockStep_end h).traceExtends drive release

/-- Acceptance drives no line, and leads from a quiescent state to `FAILED` or `FA_DRIVE` (R75). -/
theorem accept_keeps_frameBalance {s : State} {p : Phase} (balance : FrameBalance s) (hp : s.phase = some p)
    (quiescent : p.quiescent = true) (r : Request) (b0 : Byte) (legal : Bool) :
    FrameBalance (accept r b0 legal s) := by
  have reached {q : Phase} (hq : (accept r b0 legal s).phase = some q) (settled : outstanding q = 0) :
      FrameBalance (accept r b0 legal s) :=
    balance.of_undriven hp hq (settled.trans (outstanding_of_quiescent quiescent).symm)
      (accept_lineCallsAllowed r b0 legal s) (accept_traceExtends r b0 legal s) (by rintro rfl; cases quiescent)
      (by rintro rfl; cases quiescent)
  rcases accept_phase r b0 legal s with ⟨-, hq⟩ | ⟨-, -, hq⟩
  · exact reached hq rfl
  · exact reached hq rfl

/-- Settles O49, by the kinds of step; a reset that is admitted finds the counts equal. -/
theorem everyStepKeepsFrameBalance : Obligations.EveryStepKeepsFrameBalance := by
  intro s t balance clean hstep
  rcases step_cases hstep with ⟨rest, hblock, -⟩ | ⟨w, rest, r, b0, legal, -, -, hpres⟩ | ⟨rest, hhost, rfl⟩ |
    ⟨rest, reply, -, rfl⟩ | ⟨rest, -, -, -, -, rfl⟩
  · exact blockStep_keeps_frameBalance (s := { s with host := rest }) balance hblock
  · obtain ⟨p, hp, -, ⟨quiescent, rfl⟩ | ⟨-, rfl⟩⟩ := present_cases hpres
    · exact accept_keeps_frameBalance (s := { s with host := rest }) balance hp quiescent r b0 legal
    · exact balance
  · obtain ⟨p, hp, hcounts⟩ := frameBalance_iff.mp balance
    have quiescent : p.quiescent = true := by
      by_contra busy
      exact clean ⟨rest, p, hhost, hp, by simpa using busy⟩
    rw [outstanding_of_quiescent quiescent] at hcounts
    exact frameBalance_iff.mpr ⟨.idle, rfl, hcounts⟩
  · exact balance
  · exact balance

/-! ### Runs from reset -/

theorem CleanRun.inv {s : State} (h : CleanRun s) : Inv s := by
  induction h with
  | start c e hs => exact inv_resetEvent { State.reset with cfg := c, env := e, host := hs }
  | step _ _ next inv => exact everyStepKeepsInvariant _ _ inv next

theorem CleanRun.frameBalance {s : State} (h : CleanRun s) : FrameBalance s := by
  induction h with
  | start => exact ⟨.idle, rfl, rfl⟩
  | step _ clean next balance => exact everyStepKeepsFrameBalance _ _ balance clean next

/-- The invariant says of a state what its state of the machine says. -/
theorem Inv.facts {s : State} {p : Phase} (inv : Inv s) (hp : s.phase = some p) : PhaseFacts p s := by
  obtain ⟨p', hp', facts⟩ := inv.phase
  obtain rfl : p' = p := Option.some.inj (hp'.symm.trans hp)
  exact facts

/-- Settles O50: such a run keeps the balance and the invariant, which has the line released in a quiescent
state. -/
theorem frameSymmetryOverRuns : Obligations.FrameSymmetryOverRuns := by
  intro s p clean hp
  have counts := clean.frameBalance.counts hp
  refine ⟨fun quiescent => ⟨?_, (clean.inv.facts hp).frameOut_of_quiescent quiescent⟩, fun busy driven => ?_⟩
  · rwa [outstanding_of_quiescent quiescent] at counts
  · rwa [outstanding_of_busy busy driven] at counts

end Sys2Proof.Machine
end

section
/-! SUPPORT. The steps of the frame line and of the transmission with their whole next states (R85 to R87, R90),
and what every exchange carries (R89). -/

namespace Sys2Proof.Machine

/-! ### A clock read behind another port call -/

section second
variable {s x : State} {e : Event} (htrace : x.trace = s.trace ++ [e])
  (hlast : lastNow (s.trace ++ [e]) = lastNow s.trace) (helapsed : x.env.elapsed = s.env.elapsed)
include htrace hlast helapsed

/-- The clock answers from its own script and its last answer, which the call before it leaves alone (R123). -/
theorem State.nowAnswer_second : x.nowAnswer = secondNow s := by
  simp [State.nowAnswer, secondNow, htrace, hlast, helapsed]

theorem State.callNow_second : x.callNow =
    { x with
      trace := s.trace ++ [e, .now (secondNow s)]
      env := { x.env with elapsed := x.env.elapsed.tail } } := by
  rw [State.callNow, State.nowAnswer_second htrace hlast helapsed]
  simp [State.record, htrace]

end second

theorem nowAnswer_callReadLine (l : Line) (s : State) : (s.callReadLine l).nowAnswer = secondNow s :=
  State.nowAnswer_second (State.callReadLine_trace s l) (lastNow_append_readLine ..) (by cases l <;> rfl)

/-- A poll makes its two port calls and writes nothing else (R93). -/
theorem afterPoll_eq_polled (l : Line) (s : State) :
    afterPoll l s = Polled l (s.lineAnswer l) (secondNow s) s := by
  rw [afterPoll, State.callNow_second (State.callReadLine_trace s l) (lastNow_append_readLine ..) (by cases l <;> rfl)]
  cases l <;> rfl

/-! ### FA_DRIVE and FA_VERIFY -/

/-- Settles O21: the clock is read behind the call that drives the line. -/
theorem faDriveAssertsTheFrameLine : Obligations.FaDriveAssertsTheFrameLine := by
  intro s ⟨hp, hf, hhost⟩
  have hlast := lastNow_append_setLine s.trace .frame s.cfg.frameAssertLevel
  have clock : ((s.callSetLine .frame s.cfg.frameAssertLevel).setFrameOut true).nowAnswer = secondNow s :=
    State.nowAnswer_second rfl hlast rfl
  have called := State.callNow_second (s := s)
    (x := (s.callSetLine .frame s.cfg.frameAssertLevel).setFrameOut true) rfl hlast rfl
  rw [step_of_no_input hhost, blockStep_of_phase hp hf]
  simp only [stepFaDrive, clock, called]
  rfl

/-- Staying in the same state of the machine writes nothing. -/
theorem State.goto_self {s : State} {p : Phase} (hp : s.phase = some p) : s.goto p = s := by
  rw [State.goto, ← (State.phase_eq_some.mp hp).2]

/-- Settles O22, by the outcomes of the poll. -/
theorem faVerifyPollsTheReadback : Obligations.FaVerifyPollsTheReadback := by
  intro s d ⟨hp, hf, hhost⟩ hd v n
  have polled : afterPoll .frame s = Polled .frame v n s := afterPoll_eq_polled .frame s
  have stay : (Polled .frame v n s).goto .faVerify = Polled .frame v n s := State.goto_self hp
  have found := pollIter_cases .frame s.cfg.frameAssertLevel s
  rw [show s.lineAnswer .frame = v from rfl, nowAnswer_callReadLine, hd] at found
  rw [step_of_no_input hhost, blockStep_of_phase hp hf]
  simp only [stepFaVerify, polled]
  rcases found with ⟨hit, hpoll⟩ | ⟨-, unarmed, -⟩ | ⟨d', miss, hd', late, hpoll⟩ | ⟨d', miss, hd', early, hpoll⟩
  · rw [hpoll, if_pos hit]
    rfl
  · cases unarmed
  · cases hd'
    rw [hpoll, if_neg miss, if_pos late]
    rfl
  · cases hd'
    rw [hpoll, if_neg miss, if_neg (Nat.not_le.mpr early)]
    exact congrArg _ stay

/-! ### XMIT -/

/-- The destination byte is the sum of the two bytes modulo 256 (R61). -/
theorem Request.destination_toNat_mod (r : Request) :
    r.destination.toNat = (r.addr.toNat + r.base.toNat) % 256 := by
  rw [Request.destination, BitVec.extractLsb'_toNat, sum9_toNat, Nat.shiftRight_zero]

/-- Sending the frame writes none of its bytes. -/
theorem sendFrame_frame (r : Request) (b0 b1 b2 b3 : Byte) (s : State) :
    (sendFrame r b0 b1 b2 b3 s).frame = s.frame := by
  rcases sendFrame_cases r b0 b1 b2 b3 s with ⟨-, h⟩ | ⟨-, h⟩ <;> rw [h] <;> rfl

/-- What the exchange and its clock read leave, for either answer (R87). -/
theorem sendFrame_eq (r : Request) (b0 b1 b2 b3 : Byte) (s : State) : sendFrame r b0 b1 b2 b3 s =
    if s.exchangeAnswer = true then
      { s with
        st := 4#4, dl := some (secondNow s + s.cfg.tAck1.at r.policy),
        trace := s.trace ++ [.exchange b0 b1 b2 b3 true, .now (secondNow s)],
        env := { s.env with exchange := s.env.exchange.tail, elapsed := s.env.elapsed.tail } }
    else
      { s with
        st := 7#4, err := 4#4, count := 0#16, trace := s.trace ++ [.exchange b0 b1 b2 b3 false],
        env := { s.env with exchange := s.env.exchange.tail } } := by
  rcases sendFrame_cases r b0 b1 b2 b3 s with ⟨answer, h⟩ | ⟨answer, h⟩ <;> rw [h, answer]
  · rw [if_neg Bool.false_ne_true, ← answer]
    rfl
  · have htrace := State.callExchange_trace s b0 b1 b2 b3
    have hlast := lastNow_append_exchange s.trace b0 b1 b2 b3 s.exchangeAnswer
    rw [if_pos rfl, State.callNow_second htrace hlast rfl, State.nowAnswer_second htrace hlast rfl, answer]
    rfl

/-- Settles O23: byte 0 is overwritten, and then the frame is sent. -/
theorem xmitSendsTheFrame : Obligations.XmitSendsTheFrame := by
  intro s r b1 b2 b3 ⟨hp, hf, hhost⟩ hreq frame1 frame2 frame3
  refine ⟨sendFrame r r.destination b1 b2 b3 (s.writeFrame 0 r.destination), r.destination, ?_,
    r.destination_toNat_mod, fun a => ?_, ?_⟩
  · rw [step_of_no_input hhost, blockStep_of_phase hp hf]
    exact stepXmit_of_frame hreq frame1 frame2 frame3
  · rw [sendFrame_frame]
    exact Memory.read_write ..
  · rw [sendFrame_frame, sendFrame_eq]
    rfl

/-! ### DEASSERT -/

/-- On the success path the check finds whether the byte of a `VALIDATE` is the address (R110). -/
theorem matchAfter_eq {s : State} {r : Request} {b : Byte} (hreq : s.req = some r)
    (hresp : r.kind = kindValidate → s.resp.read 0 = some b) :
    matchAfter s = some (if r.kind = kindValidate then b == r.addr else s.matched) := by
  by_cases validate : r.kind = kindValidate
  · simp only [matchAfter, hreq, hresp validate, if_pos validate]
    rfl
  · simp only [matchAfter, hreq, if_neg validate]

/-- Settles O28, by the code in `ERR`. -/
theorem deassertSettlesTheResult : Obligations.DeassertSettlesTheResult := by
  intro s r b ⟨hp, hf, hhost⟩ hreq hresp
  have hstep : step s = stepDeassert s := (step_of_no_input hhost).trans (blockStep_of_phase hp hf)
  rw [hstep]
  by_cases success : s.err = 0#4
  · rw [if_pos success, stepDeassert_of_success success (matchAfter_eq hreq (hresp success))]
    rfl
  · rw [if_neg success, stepDeassert_of_failure success]
    rfl

/-! ### The exchanges of TRACE -/

/-- The event is an `Exchange` (R38). -/
def Event.isExchange : Event → Bool
  | .exchange .. => true
  | .ready _ | .setLine .. | .readLine .. | .readByte .. | .now _ => false

/-- The exchanges of a trace, in order. -/
def exchanges (tr : List Event) : List Event := tr.filter Event.isExchange

/-- The exchange that sends the request `r` and answers `ok` (R89). -/
def Request.exchange (r : Request) (ok : Bool) : Event := .exchange r.destination r.opc r.arg1 r.arg2 ok

/-- Only `XMIT` makes an exchange (R87). -/
theorem BlockMove.exchanges_eq {s t : State} {p q : Phase} (h : BlockMove s p q t) (other : p ≠ .xmit) :
    exchanges t.trace = exchanges s.trace := by
  cases h with
  | sent | notSent => exact absurd rfl other
  | shortWaitFailed _ _ ended | written _ _ ended | waitLong _ _ ended =>
    obtain ⟨b, rfl⟩ := ended.eq
    simp [exchanges, Event.isExchange]
  | countReached _ stored | countAgain _ stored | trailing _ stored | overflow _ stored | termAgain _ stored =>
    simp [stored.eq, exchanges, Event.isExchange]
  | succeeded | failed => simp [frameReleased, exchanges, Event.isExchange]
  | drive | verifyHit | verifyTimeout | verifyAgain | shortWaitAgain | longWaitHit | longWaitTimeout
  | longWaitAgain | readFailed => simp [exchanges, Event.isExchange]

/-- Acceptance makes no exchange (R75, R84). -/
theorem accept_exchanges (r : Request) (b0 : Byte) (legal : Bool) (s : State) :
    exchanges (accept r b0 legal s).trace = exchanges s.trace := by
  rcases accept_cases r b0 legal s with ⟨-, h⟩ | ⟨-, -, h⟩ | ⟨-, -, -, h⟩ | ⟨-, -, -, h⟩ <;> rw [h]
  · rfl
  · simp [exchanges, Event.isExchange]
  · simp [precheck_eq, exchanges, Event.isExchange]
  · simp [exchanges, Event.isExchange]

/-- The bytes behind byte 0 are those that acceptance latched (R60, R75). -/
theorem Running.frameBytes {s : State} {r : Request} {out : Bool} {b1 b2 b3 : Byte} (run : Running r out s)
    (frame1 : s.readFrame 1 = some b1) (frame2 : s.readFrame 2 = some b2) (frame3 : s.readFrame 3 = some b3) :
    b1 = r.opc ∧ b2 = r.arg1 ∧ b3 = r.arg2 := by
  obtain ⟨b, hframe⟩ := run.frame
  rw [State.readFrame, hframe] at frame1 frame2 frame3
  cases frame1
  cases frame2
  cases frame3
  exact ⟨rfl, rfl, rfl⟩

/-- `XMIT` makes one exchange, which sends the request of the transaction (R87, R89). -/
theorem BlockMove.sends {s t : State} {q : Phase} {r : Request} {out : Bool} (h : BlockMove s .xmit q t)
    (run : Running r out s) :
    ∃ ok, t.req = some r ∧ exchanges t.trace = exchanges s.trace ++ [r.exchange ok] := by
  cases h with
  | sent req frame1 frame2 frame3 _ eq =>
    obtain rfl := Option.some.inj (run.req.symm.trans req)
    obtain ⟨rfl, rfl, rfl⟩ := run.frameBytes frame1 frame2 frame3
    subst eq
    exact ⟨(s.writeFrame 0 r.destination).exchangeAnswer, req, by
      simp [exchanges, List.filter_cons, Event.isExchange, Request.exchange]⟩
  | notSent req frame1 frame2 frame3 =>
    obtain rfl := Option.some.inj (run.req.symm.trans req)
    obtain ⟨rfl, rfl, rfl⟩ := run.frameBytes frame1 frame2 frame3
    exact ⟨(s.writeFrame 0 r.destination).exchangeAnswer, req, by
      simp [exchanges, Request.exchange, Event.isExchange]⟩

/-- A step makes no exchange, or the one of its transaction's legal request. -/
def SendsAtMostItsRequest (s t : State) : Prop :=
  exchanges t.trace = exchanges s.trace ∨
    ∃ r ok, s.req = some r ∧ t.req = some r ∧ RequestLegal s.cfg r ∧
      exchanges t.trace = exchanges s.trace ++ [r.exchange ok]

theorem blockStep_sends {s t : State} (inv : Inv s) (h : blockStep s = .next t) : SendsAtMostItsRequest s t := by
  obtain ⟨p, hp, -, ⟨-, rfl⟩ | ⟨q, move⟩⟩ := blockStep_cases h
  · exact .inl rfl
  · by_cases xmit : p = .xmit
    · subst xmit
      obtain ⟨r, run, -, -⟩ := inv.facts hp
      obtain ⟨ok, hreq, sent⟩ := move.sends run
      exact .inr ⟨r, ok, run.req, hreq, run.legal, sent⟩
    · exact .inl (move.exchanges_eq xmit)

theorem step_sends {s t : State} (inv : Inv s) (h : step s = .next t) : SendsAtMostItsRequest s t := by
  rcases step_cases h with ⟨rest, hblock, -⟩ | ⟨w, rest, r, b0, legal, -, -, hpres⟩ | ⟨rest, -, rfl⟩ |
    ⟨rest, reply, -, rfl⟩ | ⟨rest, -, -, -, -, rfl⟩
  · exact blockStep_sends (s := { s with host := rest }) (inv.setHost rest s.replies) hblock
  · obtain ⟨-, -, -, ⟨-, rfl⟩ | ⟨-, rfl⟩⟩ := present_cases hpres
    · exact .inl (accept_exchanges r b0 legal { s with host := rest })
    · exact .inl rfl
  · exact .inl rfl
  · exact .inl rfl
  · exact .inl rfl

/-- Settles O55: an exchange among the new events is the one of the step, and the sum of a legal request is exact. -/
theorem exchangeCarriesTheDestination : Obligations.ExchangeCarriesTheDestination := by
  intro s t evs b0 b1 b2 b3 ok inv hstep htrace hmem
  have made : .exchange b0 b1 b2 b3 ok ∈ exchanges evs := List.mem_filter.mpr ⟨hmem, rfl⟩
  have hexchanges : exchanges t.trace = exchanges s.trace ++ exchanges evs := by
    rw [htrace, exchanges, List.filter_append]
    rfl
  rcases step_sends inv hstep with unsent | ⟨r, ok', hreq, hreq', legal, one⟩
  · rw [List.append_cancel_left (hexchanges.symm.trans (unsent.trans (List.append_nil _).symm))] at made
    cases made
  · rw [List.append_cancel_left (hexchanges.symm.trans one)] at made
    cases List.mem_singleton.mp made
    exact ⟨r, hreq, hreq', Request.destination_toNat legal.1, rfl, rfl, rfl⟩

end Sys2Proof.Machine
end

section
/-! SUPPORT. The two acknowledge waits with their whole next states (R95, R96), the results of a wait that nobody
answers (R98, R99), and when a poll takes another iteration (R93, R94). -/

namespace Sys2Proof.Machine

/-! ### The whole next states of the two waits -/

theorem eq_true_of_ne_ackAssertLevel {v : Bool} (h : v ≠ ackAssertLevel) : v = true :=
  Bool.eq_true_of_not_eq_false h

/-- What the end of the short wait leaves, in either way it ends: `ACK1_TO` is set where the line was high (R95). -/
theorem ShortWaitOver.eq_polled {s x : State} (h : ShortWaitOver s x) :
    x = { Polled .ack (s.lineAnswer .ack) (secondNow s) s with ack1TO := s.ack1TO || s.lineAnswer .ack } := by
  cases h with
  | hit answer =>
    rw [show s.lineAnswer .ack = false from answer, Bool.or_false, ← show s.lineAnswer .ack = false from answer]
    exact afterPoll_eq_polled .ack s
  | timeout late =>
    rw [afterPoll_eq_polled, State.setAck1TO, eq_true_of_ne_ackAssertLevel late.1, Bool.or_true]

/-- The short wait with an armed deadline takes another iteration on a high line before the deadline, else it is
over (R93, R95). -/
theorem stepAckW1_of_armed {s : State} {r : Request} {d : Nat} (hreq : s.req = some r) (hd : s.dl = some d) :
    (s.lineAnswer .ack = true ∧ secondNow s < d ∧ stepAckW1 s = .next ((afterPoll .ack s).goto .ackW1)) ∨
    (¬(s.lineAnswer .ack = true ∧ secondNow s < d) ∧
      ∃ x, ShortWaitOver s x ∧ stepAckW1 s = .next (endShortWait r (secondNow s) x)) := by
  rcases pollIter_cases .ack ackAssertLevel s with ⟨hit, hpoll⟩ | ⟨-, unarmed, -⟩ | ⟨d', miss, hd', late, hpoll⟩ |
    ⟨d', miss, hd', early, hpoll⟩
  · refine .inr ⟨fun high => ?_, _, .hit hit, ?_⟩
    · rw [hit] at high
      exact Bool.noConfusion high.1
    · rw [← nowAnswer_callReadLine .ack s]
      simp only [stepAckW1, hreq, hpoll]
  · rw [hd] at unarmed
    cases unarmed
  · cases hd.symm.trans hd'
    refine .inr ⟨fun high => ?_, _, .timeout ⟨miss, d, hd, late⟩, ?_⟩
    · rw [nowAnswer_callReadLine] at late
      omega
    · rw [← nowAnswer_callReadLine .ack s]
      simp only [stepAckW1, hreq, hpoll]
  · cases hd.symm.trans hd'
    refine .inl ⟨eq_true_of_ne_ackAssertLevel miss, nowAnswer_callReadLine .ack s ▸ early, ?_⟩
    simp only [stepAckW1, hreq, hpoll]

/-- Settles O24: the wait goes on, or it is over and the branches left are those of `endShortWait`. -/
theorem ackW1WaitsShort : Obligations.AckW1WaitsShort := by
  intro s r d ⟨hp, hf, hhost⟩ hreq hd v n out
  have hstep : step s = stepAckW1 s := (step_of_no_input hhost).trans (blockStep_of_phase hp hf)
  rw [hstep]
  rcases stepAckW1_of_armed hreq hd with ⟨high, early, hnext⟩ | ⟨notEarly, x, ended, hnext⟩ <;> rw [hnext]
  · have polled : afterPoll .ack s = Polled .ack v n s := afterPoll_eq_polled .ack s
    rw [if_pos ⟨high, early⟩, polled]
    exact congrArg _ (State.goto_self (s := Polled .ack v n s) hp)
  · rw [if_neg (show ¬(v = true ∧ n < d) from notEarly), ended.eq_polled]
    rfl

/-- Settles O25, by the outcomes of the poll. -/
theorem ackW2WaitsLong : Obligations.AckW2WaitsLong := by
  intro s d ⟨hp, hf, hhost⟩ hd v n
  have polled : afterPoll .ack s = Polled .ack v n s := afterPoll_eq_polled .ack s
  have stay : (Polled .ack v n s).goto .ackW2 = Polled .ack v n s := State.goto_self hp
  have found := pollIter_cases .ack false s
  rw [show s.lineAnswer .ack = v from rfl, nowAnswer_callReadLine, hd] at found
  rw [step_of_no_input hhost, blockStep_of_phase hp hf]
  simp only [stepAckW2, ackAssertLevel, polled]
  rcases found with ⟨hit, hpoll⟩ | ⟨-, unarmed, -⟩ | ⟨d', miss, hd', late, hpoll⟩ | ⟨d', miss, hd', early, hpoll⟩
  · rw [hpoll, if_pos hit]
    rfl
  · cases unarmed
  · cases hd'
    rw [hpoll, if_neg miss, if_pos late]
    rfl
  · cases hd'
    rw [hpoll, if_neg miss, if_neg (Nat.not_le.mpr early)]
    exact congrArg _ stay

/-! ### The result of a wait that nobody answers -/

/-- A legal mode `W` request is no `VALIDATE` (R69). -/
theorem RequestLegal.kind_of_modeW {c : Params} {r : Request} (h : RequestLegal c r) (mode : r.mode = modeW) :
    r.kind ≠ kindValidate := by
  rcases h.2 with ⟨kind, -⟩ | ⟨-, hm, -⟩ | ⟨-, hm⟩ | ⟨-, hm, -⟩
  · rw [kind]
    decide
  all_goals
    rw [mode] at hm
    exact absurd hm (by decide)

/-- Settles O31: the timeout of the short wait goes to `DEASSERT`, which settles by the code it finds. -/
theorem noAcknowledgeInModeW : Obligations.NoAcknowledgeInModeW := by
  intro s r d inv ⟨hp, hf, hhost⟩ hreq mode hd high late
  obtain ⟨r', run, nothing, -, -⟩ := inv.facts hp
  obtain rfl := Option.some.inj (run.req.symm.trans hreq)
  have first := ackW1WaitsShort s r' d ⟨hp, hf, hhost⟩ hreq hd
  simp only [high, true_and, if_neg (Nat.not_lt.mpr late), if_pos mode, Bool.or_true] at first
  cases strict : s.cfg.noackWriteValid with
  | false =>
    rw [if_pos strict] at first
    obtain ⟨-, second⟩ := failureEntryAndReturn s _ hhost nothing.err first
      (show FailCode.ackTimeout.code ≠ _ by decide)
    exact ⟨_, run_trans (run_one first) (run_one second), rfl, rfl, nothing.count, rfl, rfl, rfl⟩
  | true =>
    rw [if_neg (by rw [strict]; decide)] at first
    have settling : BlockIn .deassert { Polled .ack true (secondNow s) s with ack1TO := true, st := 7#4 } :=
      ⟨State.phase_of (State.phase_eq_some.mp hp).1 rfl, hf, hhost⟩
    have second := deassertSettlesTheResult _ r' 0#8 settling hreq
      fun _ kind => absurd kind (run.legal.kind_of_modeW mode)
    rw [if_pos (by exact nothing.err)] at second
    exact ⟨_, run_trans (run_one first) (run_one second), rfl, rfl, nothing.count, nothing.err, rfl, rfl⟩

/-- Settles O32: the timeout of the long wait raises `ACK_TIMEOUT`, and `DEASSERT` returns in `FAILED`. -/
theorem noAcknowledgeInReadModes : Obligations.NoAcknowledgeInReadModes := by
  intro s d inv ⟨hp, hf, hhost⟩ hd high late
  obtain ⟨r, run, nothing, -, -⟩ := inv.facts hp
  have first := ackW2WaitsLong s d ⟨hp, hf, hhost⟩ hd
  simp only [high, if_pos late, Bool.true_eq_false, if_false] at first
  obtain ⟨-, second⟩ := failureEntryAndReturn s _ hhost nothing.err first
    (show FailCode.ackTimeout.code ≠ _ by decide)
  exact ⟨_, run_trans (run_one first) (run_one second), rfl, nothing.count, rfl, rfl, rfl, rfl, rfl⟩

/-! ### When a poll goes on -/

/-- The state `p` of the machine is a poll of the line `l` for the level `want` (R86, R95, R96). -/
inductive PollsIn (s : State) : Phase → Line → Bool → Prop
  | verify : PollsIn s .faVerify .frame s.cfg.frameAssertLevel
  | short : PollsIn s .ackW1 .ack ackAssertLevel
  | long : PollsIn s .ackW2 .ack ackAssertLevel

/-- A poll that goes on has neither hit nor timed out. -/
theorem PollGoesOn.not_over {s : State} {l : Line} {want : Bool} (h : PollGoesOn l want s) :
    s.lineAnswer l ≠ want ∧ ¬PollTimesOut l want s := by
  obtain ⟨miss, d, hd, early⟩ := h
  refine ⟨miss, fun ⟨_, d', hd', late⟩ => ?_⟩
  cases hd.symm.trans hd'
  omega

/-- The short wait that is over does not go on. -/
theorem ShortWaitOver.not_goesOn {s x : State} (h : ShortWaitOver s x) : ¬PollGoesOn .ack ackAssertLevel s := by
  intro early
  obtain ⟨miss, notLate⟩ := early.not_over
  cases h with
  | hit answer => exact miss answer
  | timeout late => exact notLate late

/-- A move from a poll has made the two calls of an iteration; it stays, with nothing else written, exactly where the
poll goes on (R93). -/
theorem BlockMove.of_poll {s t : State} {p q : Phase} {l : Line} {want : Bool} (h : BlockMove s p q t)
    (poll : PollsIn s p l want) :
    t.trace = (afterPoll l s).trace ∧
      ((PollGoesOn l want s ∧ q = p ∧ t = (afterPoll l s).goto p) ∨ (¬PollGoesOn l want s ∧ q ≠ p)) := by
  cases poll with
  | verify =>
    cases h with
    | verifyHit answer => exact ⟨rfl, .inr ⟨fun early => early.1 answer, by decide⟩⟩
    | verifyTimeout late => exact ⟨rfl, .inr ⟨fun early => early.not_over.2 late, by decide⟩⟩
    | verifyAgain early => exact ⟨rfl, .inl ⟨early, rfl, rfl⟩⟩
  | short =>
    cases h with
    | shortWaitAgain early => exact ⟨rfl, .inl ⟨early, rfl, rfl⟩⟩
    | shortWaitFailed _ _ ended | written _ _ ended | waitLong _ _ ended =>
      obtain ⟨b, hx⟩ := ended.eq
      exact ⟨hx ▸ rfl, .inr ⟨ended.not_goesOn, by decide⟩⟩
  | long =>
    cases h with
    | longWaitHit answer => exact ⟨rfl, .inr ⟨fun early => early.1 answer, by decide⟩⟩
    | longWaitTimeout late => exact ⟨rfl, .inr ⟨fun early => early.not_over.2 late, by decide⟩⟩
    | longWaitAgain early => exact ⟨rfl, .inl ⟨early, rfl, rfl⟩⟩

theorem PollsIn.busy {s : State} {p : Phase} {l : Line} {want : Bool} (poll : PollsIn s p l want) :
    p.quiescent = false := by
  cases poll <;> rfl

/-- A block step of a busy block is a move from its state of the machine. -/
theorem blockStep_move {s t : State} {p : Phase} (hp : s.phase = some p) (busy : p.quiescent = false)
    (h : blockStep s = .next t) : ∃ q, t.phase = some q ∧ BlockMove s p q t := by
  obtain ⟨p', hp', -, ⟨quiescent, -⟩ | ⟨q, move⟩⟩ := blockStep_cases h <;>
    obtain rfl : p = p' := Option.some.inj (hp.symm.trans hp')
  · rw [busy] at quiescent
    cases quiescent
  · exact ⟨q, move.phase_eq hp, move⟩

theorem pollGoesOn_iff {s : State} {l : Line} {want : Bool} {d : Nat} (hd : s.dl = some d) :
    PollGoesOn l want s ↔ s.lineAnswer l ≠ want ∧ (s.callReadLine l).nowAnswer < d := by
  simp [PollGoesOn, hd]

/-- Settles O44, by what a move from a poll does. -/
theorem pollGoesOnOnlyBeforeItsDeadline : Obligations.PollGoesOnOnlyBeforeItsDeadline := by
  intro s t p l want d hhost hd hp hpoll hstep
  have poll : PollsIn s p l want := by
    rcases hpoll with ⟨rfl, rfl, rfl⟩ | ⟨rfl | rfl, rfl, rfl⟩
    · exact .verify
    · exact .short
    · exact .long
  rw [step_of_no_input hhost] at hstep
  obtain ⟨q, hq, move⟩ := blockStep_move hp poll.busy hstep
  obtain ⟨htrace, hends⟩ := move.of_poll poll
  refine ⟨_, _, htrace.trans (afterPoll_trace s l), ?_⟩
  rw [← pollGoesOn_iff hd, hq, Option.some.injEq]
  rcases hends with ⟨early, rfl, rfl⟩ | ⟨stops, left⟩
  · exact ⟨iff_of_true rfl early, fun _ => rfl⟩
  · exact ⟨iff_of_false left stops, fun same => absurd same left⟩

end Sys2Proof.Machine
end

section
/-! SUPPORT. Every transaction ends (R94, R109, R142): from a state of the invariant the block always has its step,
each step of a busy block leaves its state of the machine for a later one or uses up some of what is left of its
loop, and so the block comes to rest. -/

namespace Sys2Proof.Machine

/-! ### A block that has a step -/

section progress
variable {s : State} {r : Request}

/-- A poll whose deadline is armed finds something (R93). -/
theorem pollIter_of_armed {d : Nat} (hd : s.dl = some d) (l : Line) (want : Bool) :
    ∃ found, pollIter l want s = some found := by
  rcases pollIter_cases l want s with ⟨-, h⟩ | ⟨-, unarmed, -⟩ | ⟨-, -, -, -, h⟩ | ⟨-, -, -, -, h⟩
  · exact ⟨_, h⟩
  · rw [hd] at unarmed
    cases unarmed
  · exact ⟨_, h⟩
  · exact ⟨_, h⟩

theorem stepFaVerify_progress {d : Nat} (hd : s.dl = some d) : ∃ t, stepFaVerify s = .next t := by
  obtain ⟨found, hpoll⟩ := pollIter_of_armed hd .frame s.cfg.frameAssertLevel
  simp only [stepFaVerify, hpoll]
  cases found <;> exact ⟨_, rfl⟩

theorem stepXmit_progress {out : Bool} (run : Running r out s) : ∃ t, stepXmit s = .next t := by
  obtain ⟨b, hframe⟩ := run.frame
  refine ⟨_, stepXmit_of_frame (b1 := r.opc) (b2 := r.arg1) (b3 := r.arg2) run.req ?_ ?_ ?_⟩ <;>
    rw [State.readFrame, hframe] <;> rfl

theorem stepAckW1_progress {d : Nat} (req : s.req = some r) (hd : s.dl = some d) :
    ∃ t, stepAckW1 s = .next t := by
  rcases stepAckW1_of_armed req hd with ⟨-, -, h⟩ | ⟨-, x, -, h⟩ <;> exact ⟨_, h⟩

theorem stepAckW2_progress {d : Nat} (hd : s.dl = some d) : ∃ t, stepAckW2 s = .next t := by
  obtain ⟨found, hpoll⟩ := pollIter_of_armed hd .ack ackAssertLevel
  simp only [stepAckW2, hpoll]
  cases found <;> exact ⟨_, rfl⟩

/-- While there is room, a byte is read whatever the answer (R101 to R103). -/
theorem readOne_progress (req : s.req = some r) (room : s.count.toNat < s.cfg.cap) (done : Byte → State → State) :
    ∃ t, readOne r done s = .next t := by
  cases answer : s.byteAnswer with
  | none => exact ⟨(s.callReadByte (r.tByte s.cfg)).raise .readTruncated, by simp only [readOne, answer]⟩
  | some b => exact ⟨_, readOne_of_stored ⟨req, answer, room, rfl⟩⟩

/-- A fixed-count request asks for no more than the buffer holds (R68). -/
theorem RequestLegal.count_le {c : Params} (h : RequestLegal c r) (mode : r.mode = modeR) : r.n.toNat ≤ c.cap := by
  have hcap := c.cap_bounds.1
  rcases h.2 with ⟨-, hm, -⟩ | ⟨-, -, -, hn⟩ | ⟨-, hm⟩ | ⟨-, -, hn⟩
  · rw [mode] at hm
    exact absurd hm (by decide)
  · exact hn
  · rw [mode] at hm
    exact absurd hm (by decide)
  · rw [hn]
    exact le_trans (by decide) hcap

theorem Reading.room (h : Reading r s) (legal : RequestLegal s.cfg r) : s.count.toNat < s.cfg.cap := by
  rcases h with ⟨mode, more, -⟩ | ⟨-, room, -⟩ | ⟨-, room, -⟩
  · exact more.trans_le (legal.count_le mode)
  · exact room
  · exact room

theorem stepRead_progress {out : Bool} (run : Running r out s) (reading : Reading r s) :
    ∃ t, stepRead s = .next t := by
  have room := reading.room run.legal
  have mode : r.mode = modeR ∨ r.mode = modeT :=
    reading.imp (fun ⟨mode, _⟩ => mode) (Or.rec (fun ⟨mode, _⟩ => mode) fun ⟨mode, _⟩ => mode)
  simp only [stepRead, run.req]
  rcases mode with mode | mode
  · rw [if_pos mode]
    exact readOne_progress run.req room _
  · rw [if_neg (by rw [mode]; decide), if_pos mode]
    exact readOne_progress run.req room _

/-- A `VALIDATE` that has received what it asks for has its byte (R83, R110). -/
theorem Received.firstByte (h : Received r s) (legal : RequestLegal s.cfg r) (buffer : BufferFilled s)
    (kind : r.kind = kindValidate) : ∃ b, s.resp.read 0 = some b := by
  obtain ⟨mode, hn⟩ : r.mode = modeR ∧ r.n = 1#8 := by
    rcases legal.2 with ⟨hk, -⟩ | ⟨hk, -⟩ | ⟨hk, -⟩ | ⟨-, form⟩
    case inr.inr.inr => exact form
    all_goals
      rw [kind] at hk
      exact absurd hk (by decide)
  have hcount : s.count.toNat = 1 := by
    simpa [Received, mode, modeW, modeR, modeT, hn] using h
  exact buffer.read_below (by omega)

theorem stepDeassert_progress {out : Bool} (run : Running r out s)
    (received : s.err = FailCode.none.code → Received r s) (buffer : BufferFilled s) :
    ∃ t, stepDeassert s = .next t := by
  by_cases success : s.err = FailCode.none.code
  · by_cases kind : r.kind = kindValidate
    · obtain ⟨b, hread⟩ := (received success).firstByte run.legal buffer kind
      exact ⟨_, stepDeassert_of_success success (matchAfter_eq run.req fun _ => hread)⟩
    · exact ⟨_, stepDeassert_of_success success (matchAfter_eq (b := 0#8) run.req fun h => absurd h kind)⟩
  · exact ⟨_, stepDeassert_of_failure success⟩

/-- From a state of the invariant with `FAULT = 0` the block has its step (R77). -/
theorem blockStep_progress (inv : Inv s) (hf : s.fault = false) : ∃ t, blockStep s = .next t := by
  obtain ⟨p, hp, facts⟩ := inv.phase
  rw [blockStep_of_phase hp hf]
  cases p with
  | idle | complete | failed => exact ⟨s, rfl⟩
  | faDrive => exact ⟨_, rfl⟩
  | faVerify =>
    obtain ⟨r, -, -, -, d, hd⟩ := facts
    exact stepFaVerify_progress hd
  | xmit =>
    obtain ⟨r, run, -⟩ := facts
    exact stepXmit_progress run
  | ackW1 =>
    obtain ⟨r, run, -, -, d, hd⟩ := facts
    exact stepAckW1_progress run.req hd
  | ackW2 =>
    obtain ⟨r, -, -, -, d, hd⟩ := facts
    exact stepAckW2_progress hd
  | read =>
    obtain ⟨r, run, -, -, reading⟩ := facts
    exact stepRead_progress run reading
  | deassert =>
    obtain ⟨r, run, received⟩ := facts
    exact stepDeassert_progress run received inv.buffer

end progress

/-! ### A poll on a scripted clock -/

/-- A poll of the machine is a poll of some line. -/
theorem exists_pollsIn {p : Phase} (h : p = .faVerify ∨ p = .ackW1 ∨ p = .ackW2) (s : State) :
    ∃ l want, PollsIn s p l want := by
  rcases h with rfl | rfl | rfl
  · exact ⟨_, _, .verify⟩
  · exact ⟨_, _, .short⟩
  · exact ⟨_, _, .long⟩

/-- The step of a poll leaves the poll, or it has made an iteration that goes on and nothing else (R93). -/
theorem step_of_poll {s : State} {p : Phase} {l : Line} {want : Bool} (inv : Inv s) (block : BlockIn p s)
    (poll : PollsIn s p l want) :
    ∃ t, step s = .next t ∧
      (t.phase ≠ some p ∨
        (PollGoesOn l want s ∧ t = (afterPoll l s).goto p ∧ Inv t ∧ BlockIn p t)) := by
  obtain ⟨hp, hf, hhost⟩ := block
  obtain ⟨t, hblock⟩ := blockStep_progress inv hf
  obtain ⟨q, hq, move⟩ := blockStep_move hp poll.busy hblock
  refine ⟨t, (step_of_no_input hhost).trans hblock, ?_⟩
  rcases move.of_poll poll with ⟨-, ⟨early, rfl, rfl⟩ | ⟨-, left⟩⟩
  · exact .inr ⟨early, rfl, blockStep_keeps_inv inv hblock, hq, hf, hhost⟩
  · exact .inl fun same => left (Option.some.inj (hq.symm.trans same))

theorem lastNow_afterPoll (l : Line) (s : State) : lastNow (afterPoll l s).trace = secondNow s :=
  (lastNow_append_now (s.callReadLine l).trace _).trans (nowAnswer_callReadLine l s)

/-- If the script brings the clock to the deadline with its next samples, the poll takes no more than these and one
(R94). -/
theorem poll_ends_with_script {s : State} {p : Phase} {d : Nat} {ds rest : List Nat} (inv : Inv s)
    (hpoll : p = .faVerify ∨ p = .ackW1 ∨ p = .ackW2) (block : BlockIn p s) (hd : s.dl = some d)
    (script : s.env.elapsed = ds ++ rest) (reached : d ≤ lastNow s.trace + ds.sum) :
    ∃ k t, k ≤ ds.length + 1 ∧ run k s = .next t ∧ t.phase ≠ some p := by
  induction ds generalizing s with
  | nil =>
    obtain ⟨l, want, poll⟩ := exists_pollsIn hpoll s
    obtain ⟨t, hstep, left | ⟨early, -⟩⟩ := step_of_poll inv block poll
    · exact ⟨1, t, le_rfl, run_one hstep, left⟩
    · have passed : lastNow s.trace ≤ secondNow s := Nat.le_add_right _ _
      have before := ((pollGoesOn_iff hd).mp early).2
      rw [nowAnswer_callReadLine] at before
      simp only [List.sum_nil] at reached
      omega
  | cons e ds ih =>
    obtain ⟨l, want, poll⟩ := exists_pollsIn hpoll s
    obtain ⟨t, hstep, left | ⟨-, rfl, inv', block'⟩⟩ := step_of_poll inv block poll
    · exact ⟨1, t, by simp, run_one hstep, left⟩
    · have clock : secondNow s = lastNow s.trace + e := by simp [secondNow, script]
      have script' : ((afterPoll l s).goto p).env.elapsed = ds ++ rest := by cases l <;> simp [Env.dropLine, script]
      obtain ⟨k, t, hk, hrun, left⟩ := ih inv' block' hd script' (by
        rw [State.goto_trace, lastNow_afterPoll, clock]
        simpa [Nat.add_assoc] using reached)
      exact ⟨k + 1, t, by simpa using hk, (run_succ k hstep).trans hrun, left⟩

/-! ### What is left of a transaction -/

/-- How many states of the machine a transaction can still come to (R22). -/
def Phase.rank : Phase → Nat
  | .faDrive => 7
  | .faVerify => 6
  | .xmit => 5
  | .ackW1 => 4
  | .ackW2 => 3
  | .read => 2
  | .deassert => 1
  | .idle | .complete | .failed => 0

/-- The port call from which on an unscripted clock has reached `d` (R123). -/
def clockReaches (d : Nat) : Nat := max d (Config.freeReach d)

/-- What is left of a poll at most: the scripted clock samples, and the port calls until the unscripted clock has
reached the deadline. -/
def pollBudget (s : State) : Nat :=
  s.env.elapsed.length + (clockReaches (s.dl.getD 0) - s.trace.length)

/-- What is left of the loop a state of the machine is: of a poll, or of the read loop, whose buffer has room for so
many bytes. -/
def loopBudget (p : Phase) (s : State) : Nat :=
  match p with
  | .faVerify | .ackW1 | .ackW2 => pollBudget s
  | .read => s.cfg.cap - s.count.toNat
  | .idle | .faDrive | .xmit | .deassert | .complete | .failed => 0

/-- An iteration that goes on has used up a sample of the script, or it has been made before the unscripted clock has
to have reached the deadline (R94, R123). -/
theorem PollGoesOn.budget_lt {s : State} {l : Line} {want : Bool} (h : PollGoesOn l want s) (p : Phase) :
    pollBudget ((afterPoll l s).goto p) < pollBudget s := by
  obtain ⟨-, d, hd, early⟩ := h
  have calls : ((afterPoll l s).goto p).trace.length = s.trace.length + 2 := by simp
  have script : ((afterPoll l s).goto p).env.elapsed = s.env.elapsed.tail := by cases l <;> rfl
  have deadline : ((afterPoll l s).goto p).dl = some d := hd
  simp only [pollBudget, calls, script, deadline, hd, Option.getD_some]
  cases helapsed : s.env.elapsed with
  | nil =>
    have unscripted : (s.callReadLine l).env.elapsed = [] := by cases l <;> exact helapsed
    have notYet : s.trace.length + 1 < clockReaches d := by
      by_contra due
      have reached : clockReaches d ≤ (s.callReadLine l).trace.length := by simpa using due
      exact Nat.not_le.mpr early (State.bound_le_nowAnswer unscripted ((le_max_left ..).trans reached)
        ((le_max_right ..).trans reached))
    simp only [List.tail_nil, List.length_nil]
    omega
  | cons e es =>
    simp only [List.tail_cons, List.length_cons]
    omega

/-- A byte that is stored takes room of the buffer (R101). -/
theorem ByteStored.budget_lt {s x : State} {r : Request} {b : Byte} (h : ByteStored s r b x) {t : State}
    (hcount : t.count = x.count) (hcfg : t.cfg = x.cfg) : loopBudget .read t < loopBudget .read s := by
  have room := h.room
  have cap : x.cfg = s.cfg := by rw [h.eq]; rfl
  simp only [loopBudget, hcount, hcfg, cap, h.count]
  omega

/-- A move of the block goes to a later state of the machine, or it stays in a loop of which less is left. -/
theorem BlockMove.descends {s t : State} {p q : Phase} (h : BlockMove s p q t) :
    q.rank < p.rank ∨ (q = p ∧ loopBudget q t < loopBudget p s) := by
  cases h with
  | verifyAgain early | shortWaitAgain early | longWaitAgain early => exact .inr ⟨rfl, early.budget_lt _⟩
  | countAgain _ stored => exact .inr ⟨rfl, stored.budget_lt rfl rfl⟩
  | termAgain _ stored => exact .inr ⟨rfl, stored.budget_lt (by simp) (by simp)⟩
  | drive | verifyHit | verifyTimeout | sent | notSent | shortWaitFailed | written | waitLong | longWaitHit
  | longWaitTimeout | readFailed | countReached | trailing | overflow | succeeded | failed => exact .inl (by decide)

/-- No move of the block writes `REQ` (R20). -/
theorem BlockMove.req_eq {s t : State} {p q : Phase} (h : BlockMove s p q t) : t.req = s.req := by
  cases h with
  | sent _ _ _ _ _ eq => subst eq; rfl
  | shortWaitFailed _ _ ended | written _ _ ended | waitLong _ _ ended =>
    obtain ⟨b, rfl⟩ := ended.eq
    rfl
  | countReached _ stored | countAgain _ stored | trailing _ stored => rw [stored.eq]; rfl
  | overflow _ stored | termAgain _ stored => rw [stored.eq]; simp
  | drive | verifyHit | verifyTimeout | verifyAgain | notSent | shortWaitAgain | longWaitHit | longWaitTimeout
  | longWaitAgain | readFailed | succeeded | failed => rfl

/-! ### The block comes to rest -/

/-- The host does nothing, or it waits: while the block is busy the block steps. -/
def HostStandsBy (hs : List HostInput) : Prop := hs = [] ∨ ∃ rest, hs = .await :: rest

theorem step_of_busy {s : State} {p : Phase} (host : HostStandsBy s.host) (hp : s.phase = some p)
    (busy : p.quiescent = false) : step s = blockStep s := by
  rcases host with hhost | ⟨rest, hhost⟩
  · exact step_of_no_input hhost
  · rw [step_of_await hhost hp, busy]
    rfl

/-- The block comes to a quiescent state with the same request, by descent on the state of the machine and on what is
left of its loop (R94, R109, R142). -/
theorem comes_to_rest {s : State} {p : Phase} (hp : s.phase = some p) (inv : Inv s) (hf : s.fault = false)
    (host : HostStandsBy s.host) :
    ∃ k t, run k s = .next t ∧ t.host = s.host ∧ Ready t ∧ t.req = s.req := by
  cases quiescent : p.quiescent with
  | true => exact ⟨0, s, rfl, rfl, ⟨p, hp, quiescent, hf⟩, rfl⟩
  | false =>
    obtain ⟨u, hblock⟩ := blockStep_progress inv hf
    obtain ⟨q, hq, move⟩ := blockStep_move hp quiescent hblock
    have hhost := blockStep_host_eq hblock
    have descends := move.descends
    obtain ⟨k, t, hrun, hhost', ready, hreq⟩ := comes_to_rest hq (blockStep_keeps_inv inv hblock)
      ((blockStep_end hblock).fault_eq.trans hf) (hhost ▸ host)
    exact ⟨k + 1, t, (run_succ k ((step_of_busy host hp quiescent).trans hblock)).trans hrun, hhost'.trans hhost,
      ready, hreq.trans move.req_eq⟩
termination_by (p.rank, loopBudget p s)
decreasing_by
  rcases descends with later | ⟨rfl, less⟩
  · exact .left _ _ later
  · exact .right _ less

/-- Settles O45: on the script by its samples; and a poll that went on for ever would keep the block from its rest. -/
theorem pollEndsWithTheClock : Obligations.PollEndsWithTheClock := by
  refine ⟨fun s p d ds rest inv hpoll block hd => poll_ends_with_script inv hpoll block hd,
    fun s p inv hpoll ⟨hp, hf, hhost⟩ => ?_⟩
  obtain ⟨k, t, hrun, -, ⟨q, hq, quiescent, -⟩, -⟩ := comes_to_rest hp inv hf (.inl hhost)
  refine ⟨k, t, hrun, fun same => ?_⟩
  obtain rfl : q = p := Option.some.inj (hq.symm.trans same)
  obtain ⟨l, want, poll⟩ := exists_pollsIn hpoll s
  rw [poll.busy] at quiescent
  cases quiescent

/-- Settles O60: the block comes to rest under either host, and then the wait is taken off. -/
theorem everyTransactionEnds : Obligations.EveryTransactionEnds := by
  intro s inv hf
  obtain ⟨p, hp, -⟩ := inv.phase
  refine ⟨fun hhost => ?_, fun rest hhost => ?_⟩
  · obtain ⟨k, t, hrun, hhost', ready, hreq⟩ := comes_to_rest hp inv hf (.inl hhost)
    exact ⟨k, t, hrun, hhost'.trans hhost, ready, hreq⟩
  · obtain ⟨k, t, hrun, hhost', ⟨q, hq, quiescent, hf'⟩, hreq⟩ := comes_to_rest hp inv hf (.inr ⟨rest, hhost⟩)
    have waited : step t = .next { t with host := rest } := by
      rw [step_of_await (hhost'.trans hhost) hq, if_pos quiescent]
    exact ⟨k + 1, _, run_trans hrun (run_one waited), rfl, ⟨q, hq, quiescent, hf'⟩, hreq⟩

end Sys2Proof.Machine
end

section
/-! SUPPORT. The acknowledge-timeout law (R100): while no read of the acknowledge line answers low and the exchange
does not fail, a transaction can only wait, time out, and return with the result of R98 or R99. -/

namespace Sys2Proof.Machine

/-! ### A transaction that nobody acknowledges -/

/-- The event is no acknowledge and no failed exchange. -/
def Event.Unheard (e : Event) : Prop :=
  e ≠ .readLine .ack false ∧ ∀ b0 b1 b2 b3, e ≠ .exchange b0 b1 b2 b3 false

/-- The code of a mode `W` transaction whose short wait has timed out (R98). -/
def noAckCode (c : Params) : BitVec 4 :=
  if c.noackWriteValid = true then FailCode.none.code else FailCode.ackTimeout.code

/-- The codes and flags with which a transaction of `r` leaves its timed out waits (R98, R99). -/
structure TimedOut (c : Params) (r : Request) (s : State) : Prop where
  ack1TO : s.ack1TO = true
  long : r.mode ≠ modeW → s.err = FailCode.ackTimeout.code ∧ s.ack2TO = true
  short : r.mode = modeW → s.err = noAckCode c

/-- What `DEASSERT` makes of that (R90). -/
structure SettledTimedOut (c : Params) (r : Request) (s : State) : Prop extends TimedOut c r s where
  frameOut : s.frameOut = false
  failed : r.mode ≠ modeW → s.st = Phase.failed.code ∧ s.valid = false
  written : r.mode = modeW → s.valid = c.noackWriteValid

/-- What holds in each state of the machine, from `XMIT` on, of a transaction that nobody has acknowledged. -/
def UnansweredFacts (c : Params) (r : Request) (p : Phase) (s : State) : Prop :=
  match p with
  | .xmit | .ackW1 => s.err = FailCode.none.code
  | .ackW2 => r.mode ≠ modeW ∧ s.ack1TO = true
  | .deassert => TimedOut c r s
  | .complete | .failed => SettledTimedOut c r s
  | .idle | .faDrive | .faVerify | .read => False

/-- The transaction of `r` under the parameters `c` has come to `p` with no acknowledge and no byte read. -/
structure Unanswered (c : Params) (r : Request) (p : Phase) (s : State) : Prop where
  req : s.req = some r
  cfg : s.cfg = c
  count : s.count = 0#16
  facts : UnansweredFacts c r p s

/-- No byte is read in the events. -/
def NoByteRead (evs : List Event) : Prop := ∀ n b, .readByte n b ∉ evs

section moves
variable {c : Params} {r : Request} {s t : State} {q : Phase} {evs : List Event}

/-- The two calls of a poll that no acknowledge answers: the line is high, and no byte is read (R93). -/
theorem unheard_poll (htrace : t.trace = s.trace ++ evs) (polled : t.trace = (afterPoll .ack s).trace)
    (unheard : ∀ e ∈ evs, e.Unheard) : s.lineAnswer .ack ≠ ackAssertLevel ∧ NoByteRead evs := by
  rw [afterPoll_trace] at polled
  obtain rfl := List.append_cancel_left (htrace.symm.trans polled)
  refine ⟨fun low => (unheard _ (List.mem_cons_self ..)).1 (by rw [low]; rfl), by simp [NoByteRead]⟩

/-- A short wait that no acknowledge answers is over by its deadline (R95). -/
theorem ShortWaitOver.timedOut {x : State} (h : ShortWaitOver s x) (high : s.lineAnswer .ack ≠ ackAssertLevel) :
    x = (afterPoll .ack s).setAck1TO := by
  cases h with
  | hit answer => exact absurd answer high
  | timeout => rfl

theorem BlockMove.unanswered_of_xmit (h : BlockMove s .xmit q t) (before : Unanswered c r .xmit s)
    (htrace : t.trace = s.trace ++ evs) (unheard : ∀ e ∈ evs, e.Unheard) :
    Unanswered c r q t ∧ NoByteRead evs := by
  obtain ⟨req, cfg, count, noFailure⟩ := before
  cases h with
  | @sent r' b1 b2 b3 _ _ _ _ _ _ eq =>
    subst eq
    have called : evs = [.exchange r'.destination b1 b2 b3 (s.writeFrame 0 r'.destination).exchangeAnswer, .now _] :=
      List.append_cancel_left (as := s.trace) (htrace.symm.trans (by simp; rfl))
    exact ⟨⟨req, cfg, count, noFailure⟩, by simp [NoByteRead, called]⟩
  | @notSent r' b1 b2 b3 _ _ _ _ refused =>
    have called : evs = [.exchange r'.destination b1 b2 b3 s.exchangeAnswer] :=
      List.append_cancel_left (as := s.trace) (htrace.symm.trans rfl)
    rw [called, refused] at unheard
    exact absurd rfl ((unheard _ (List.mem_singleton_self _)).2 _ _ _ _)

theorem BlockMove.unanswered_of_ackW1 (h : BlockMove s .ackW1 q t) (before : Unanswered c r .ackW1 s)
    (htrace : t.trace = s.trace ++ evs) (unheard : ∀ e ∈ evs, e.Unheard) :
    Unanswered c r q t ∧ NoByteRead evs := by
  obtain ⟨high, noByte⟩ := unheard_poll htrace (h.of_poll .short).1 unheard
  refine ⟨?_, noByte⟩
  have req := h.req_eq.trans before.req
  obtain ⟨hreq, rfl, count, noFailure⟩ := before
  cases h with
  | shortWaitAgain => exact ⟨req, rfl, count, noFailure⟩
  | shortWaitFailed req' mode ended _ strict =>
    obtain rfl := Option.some.inj (hreq.symm.trans req')
    obtain rfl := ended.timedOut high
    refine ⟨req, rfl, count, rfl, absurd mode, fun _ => ?_⟩
    rw [noAckCode, strict]
    rfl
  | written req' mode ended accepted =>
    obtain rfl := Option.some.inj (hreq.symm.trans req')
    obtain rfl := ended.timedOut high
    have lenient : s.cfg.noackWriteValid = true := by simpa using accepted
    refine ⟨req, rfl, count, rfl, absurd mode, fun _ => ?_⟩
    rw [noAckCode, if_pos lenient]
    exact noFailure
  | waitLong req' mode ended =>
    obtain rfl := Option.some.inj (hreq.symm.trans req')
    obtain rfl := ended.timedOut high
    exact ⟨req, rfl, count, mode, rfl⟩

theorem BlockMove.unanswered_of_ackW2 (h : BlockMove s .ackW2 q t) (before : Unanswered c r .ackW2 s)
    (htrace : t.trace = s.trace ++ evs) (unheard : ∀ e ∈ evs, e.Unheard) :
    Unanswered c r q t ∧ NoByteRead evs := by
  obtain ⟨high, noByte⟩ := unheard_poll htrace (h.of_poll .long).1 unheard
  refine ⟨?_, noByte⟩
  obtain ⟨req, cfg, count, mode, ack1TO⟩ := before
  cases h with
  | longWaitHit answer => exact absurd answer high
  | longWaitTimeout => exact ⟨req, cfg, count, ack1TO, fun _ => ⟨rfl, rfl⟩, fun modeW => absurd modeW mode⟩
  | longWaitAgain => exact ⟨req, cfg, count, mode, ack1TO⟩

/-- `DEASSERT` settles by the code the waits have left: a success only in mode `W`, where it is allowed (R90, R98). -/
theorem BlockMove.unanswered_of_deassert (h : BlockMove s .deassert q t) (before : Unanswered c r .deassert s)
    (htrace : t.trace = s.trace ++ evs) : Unanswered c r q t ∧ NoByteRead evs := by
  obtain ⟨req, cfg, count, ack1TO, long, short⟩ := before
  have called : evs = [.setLine .frame (!s.cfg.frameAssertLevel)] :=
    List.append_cancel_left (as := s.trace) (htrace.symm.trans (by cases h <;> rfl))
  refine ⟨?_, by simp [NoByteRead, called]⟩
  cases h with
  | succeeded success =>
    have mode : r.mode = modeW := by
      by_contra mode
      exact absurd ((long mode).1.symm.trans success) (by decide)
    have lenient : c.noackWriteValid = true := by
      by_contra strict
      have code := short mode
      rw [noAckCode, if_neg strict, success] at code
      exact absurd code (by decide)
    exact ⟨req, cfg, count, ⟨ack1TO, long, short⟩, rfl, absurd mode, fun _ => lenient.symm⟩
  | failed failure =>
    have strict (mode : r.mode = modeW) : c.noackWriteValid = false := by
      by_contra lenient
      exact failure ((short mode).trans (if_pos (by simpa using lenient)))
    exact ⟨req, cfg, count, ⟨ack1TO, long, short⟩, rfl, fun _ => ⟨rfl, rfl⟩, fun mode => (strict mode).symm⟩

/-- A move of a transaction that nobody acknowledges reads no byte, and nobody has acknowledged it behind the move
(R100). -/
theorem BlockMove.unanswered {p : Phase} (h : BlockMove s p q t) (before : Unanswered c r p s)
    (htrace : t.trace = s.trace ++ evs) (unheard : ∀ e ∈ evs, e.Unheard) :
    Unanswered c r q t ∧ NoByteRead evs := by
  have busy := h.busy
  cases p with
  | idle | complete | failed => cases busy
  | faDrive | faVerify | read => exact before.facts.elim
  | xmit => exact h.unanswered_of_xmit before htrace unheard
  | ackW1 => exact h.unanswered_of_ackW1 before htrace unheard
  | ackW2 => exact h.unanswered_of_ackW2 before htrace unheard
  | deassert => exact h.unanswered_of_deassert before htrace

end moves

/-! ### Runs -/

/-- A run takes no event out of TRACE (R38). -/
theorem run_trace_grows {s t : State} {k : Nat} (h : run k s = .next t) : s.trace <+: t.trace := by
  induction k generalizing s with
  | zero =>
    cases h
    exact ⟨[], List.append_nil _⟩
  | succ k ih =>
    obtain ⟨⟨⟩, -⟩ | ⟨_, u, ⟨⟩, hstep, hrun⟩ := run_cases h
    exact (step_traceExtends hstep).trace.trans (ih hrun)

/-- A run of such a transaction reads no byte and stays unanswered (R100). -/
theorem run_unanswered {c : Params} {r : Request} {s t : State} {p : Phase} {k : Nat} {evs : List Event}
    (hp : s.phase = some p) (hhost : s.host = []) (before : Unanswered c r p s) (h : run k s = .next t)
    (htrace : t.trace = s.trace ++ evs) (unheard : ∀ e ∈ evs, e.Unheard) :
    NoByteRead evs ∧ ∃ q, t.phase = some q ∧ Unanswered c r q t := by
  induction k generalizing s p evs with
  | zero =>
    cases h
    obtain rfl : evs = [] := by simpa using htrace
    exact ⟨by simp [NoByteRead], p, hp, before⟩
  | succ k ih =>
    obtain ⟨⟨⟩, -⟩ | ⟨_, u, ⟨⟩, hstep, hrun⟩ := run_cases h
    rw [step_of_no_input hhost] at hstep
    have hhost' := (blockStep_host_eq hstep).trans hhost
    obtain ⟨p', hp', -, ⟨-, rfl⟩ | ⟨q, move⟩⟩ := blockStep_cases hstep
    · exact ih hp hhost before hrun htrace unheard
    · obtain rfl : p = p' := Option.some.inj (hp.symm.trans hp')
      obtain ⟨evs1, made⟩ := (blockStep_end hstep).traceExtends.trace
      obtain ⟨evs2, later⟩ := run_trace_grows hrun
      obtain rfl : evs = evs1 ++ evs2 := by
        refine List.append_cancel_left (as := s.trace) ?_
        rw [← htrace, ← later, ← made, List.append_assoc]
      obtain ⟨after, noByte⟩ :=
        move.unanswered before made.symm fun e he => unheard e (List.mem_append_left _ he)
      obtain ⟨noByte', ends⟩ :=
        ih (move.phase_eq hp) hhost' after hrun later.symm fun e he => unheard e (List.mem_append_right _ he)
      exact ⟨fun n b hmem => (List.mem_append.mp hmem).elim (noByte n b) (noByte' n b), ends⟩

/-- In a quiescent state such a transaction has the result of its timeouts (R98, R99). -/
theorem Unanswered.settled {c : Params} {r : Request} {p : Phase} {s : State} (h : Unanswered c r p s)
    (quiescent : p.quiescent = true) : SettledTimedOut c r s := by
  have facts := h.facts
  cases p with
  | idle => exact facts.elim
  | complete | failed => exact facts
  | faDrive | faVerify | xmit | ackW1 | ackW2 | read | deassert => cases quiescent

/-- Settles O46: the transaction starts unanswered in `XMIT`, and every step of the run keeps it so. -/
theorem ackTimeoutDegradesGracefully : Obligations.AckTimeoutDegradesGracefully := by
  intro s t r k evs inv ⟨hp, hf, hhost⟩ hreq hrun htrace noAck noFailedExchange
  obtain ⟨r', run, nothing, -⟩ := inv.facts hp
  have unheard (e : Event) (he : e ∈ evs) : e.Unheard :=
    ⟨fun heq => noAck (heq ▸ he), fun b0 b1 b2 b3 heq => noFailedExchange b0 b1 b2 b3 (heq ▸ he)⟩
  obtain ⟨noByte, q, hq, ends⟩ :=
    run_unanswered hp hhost ⟨hreq, rfl, nothing.count, nothing.err⟩ hrun htrace unheard
  refine ⟨noByte, ends.count, fun p hp' quiescent => ?_⟩
  obtain rfl : q = p := Option.some.inj (hq.symm.trans hp')
  obtain ⟨⟨ack1TO, long, short⟩, frameOut, failed, written⟩ := ends.settled quiescent
  refine ⟨ack1TO, frameOut, fun mode => ?_, fun mode => ⟨written mode, short mode⟩⟩
  obtain ⟨code, ack2TO⟩ := long mode
  obtain ⟨st, valid⟩ := failed mode
  exact ⟨st, code, valid, ack2TO⟩

end Sys2Proof.Machine
end

section
/-! SUPPORT. The byte read loop (R101 to R106, R109): its step in each mode with the whole next state, the two failures
it can raise with their results, and the bound on its steps. -/

namespace Sys2Proof.Machine

/-! ### What a stored byte and its continuation leave -/

section stored
variable {s x : State} {r : Request} {b : Byte}

/-- The byte goes to the cell at `COUNT`, and every other cell reads as before (R101). -/
theorem ByteStored.read_eq (h : ByteStored s r b x) (a : Nat) :
    x.resp.read a = if a = s.count.toNat then some b else s.resp.read a := by
  rw [h.eq]
  exact Memory.read_write ..

/-- A byte read and stored writes `RESP` and `COUNT`, takes one answer, and is recorded (R38, R101, R102). -/
theorem ByteStored.eq_update (h : ByteStored s r b x) : x =
    { s with
      resp := x.resp, count := x.count, env := { s.env with byte := s.env.byte.tail },
      trace := s.trace ++ [.readByte (s.cfg.tByte.at r.policy) (some b)] } := by
  rw [h.eq, ← h.byte]
  rfl

end stored

/-- A fixed-count read writes nothing but `ST` once its byte is stored (R104). -/
theorem afterByteR_eq (r : Request) (s : State) :
    afterByteR r s = { s with st := if s.count.toNat = r.n.toNat then 7#4 else 6#4 } := by
  rcases afterByteR_cases r s with ⟨last, h⟩ | ⟨more, h⟩ <;> rw [h]
  · rw [if_pos last]
    rfl
  · rw [if_neg more]
    rfl

/-- `SAW_TERM` is set by a terminator and stays as it is otherwise (R28, R105). -/
theorem State.noteTerm_eq (b : Byte) (s : State) :
    s.noteTerm b = { s with sawTerm := s.sawTerm || b == 0#8 } := by
  by_cases term : b = termByte
  · rw [State.noteTerm, if_pos term, show (b == 0#8) = true from beq_iff_eq.mpr term, Bool.or_true]
    rfl
  · rw [State.noteTerm, if_neg term, show (b == 0#8) = false from beq_false_of_ne term, Bool.or_false]

/-- A terminator read writes `SAW_TERM`, `ST` and `ERR` once its byte is stored (R105, R106). -/
theorem afterByteT_eq (b : Byte) (s : State) : afterByteT b s =
    { s with
      sawTerm := s.sawTerm || b == 0#8
      st := if s.sawTerm = false ∧ s.count.toNat ≠ s.cfg.cap then 6#4 else 7#4
      err := if s.sawTerm = false ∧ s.count.toNat = s.cfg.cap then 7#4 else s.err } := by
  rcases afterByteT_cases b s with ⟨seen, h⟩ | ⟨unseen, full, h⟩ | ⟨unseen, more, h⟩ <;> rw [h]
  · simp only [seen, Bool.true_or, Bool.true_eq_false, false_and, if_false]
    rw [← seen]
    rfl
  · simp [State.noteTerm_eq, State.raise, unseen, full, Phase.code, FailCode.code]
  · simp [State.noteTerm_eq, State.goto, unseen, more, Phase.code]

/-! ### The step -/

section step
variable {s : State} {r : Request}

theorem step_of_read (block : BlockIn .read s) : step s = stepRead s := by
  obtain ⟨hp, hf, hhost⟩ := block
  exact (step_of_no_input hhost).trans (blockStep_of_phase hp hf)

theorem stepRead_of_modeR (req : s.req = some r) (mode : r.mode = modeR) :
    stepRead s = readOne r (fun _ => afterByteR r) s := by
  simp only [stepRead, req, if_pos mode]

theorem stepRead_of_modeT (req : s.req = some r) (mode : r.mode = modeT) :
    stepRead s = readOne r afterByteT s := by
  have other : ¬r.mode = modeR := by rw [mode]; decide
  simp only [stepRead, req, if_neg other, if_pos mode]

/-- A failed `ReadByte` raises `READ_TRUNCATED` in either mode, and stores nothing (R103). -/
theorem stepRead_of_err (req : s.req = some r) (mode : r.mode = modeR ∨ r.mode = modeT)
    (answer : s.byteAnswer = none) :
    stepRead s = .next ((s.callReadByte (r.tByte s.cfg)).raise .readTruncated) := by
  rcases mode with mode | mode
  · rw [stepRead_of_modeR req mode]
    simp only [readOne, answer]
  · rw [stepRead_of_modeT req mode]
    simp only [readOne, answer]

theorem callReadByte_of_err (answer : s.byteAnswer = none) (t : Nat) : s.callReadByte t =
    { s with env := { s.env with byte := s.env.byte.tail }, trace := s.trace ++ [.readByte t none] } := by
  rw [← answer]
  rfl

/-- The whole next state of a failed `ReadByte` (R103). -/
theorem step_of_readFailed (block : BlockIn .read s) (req : s.req = some r)
    (mode : r.mode = modeR ∨ r.mode = modeT) (answer : s.byteAnswer = none) : step s = .next
      { s with
        st := 7#4, err := 6#4, env := { s.env with byte := s.env.byte.tail },
        trace := s.trace ++ [.readByte (s.cfg.tByte.at r.policy) none] } := by
  rw [step_of_read block, stepRead_of_err req mode answer, callReadByte_of_err answer]
  rfl

/-- Settles O26, by the answer of `ReadByte`. -/
theorem readFixedCountStep : Obligations.ReadFixedCountStep := by
  intro s r block req mode room
  cases answer : s.env.byte.headD (Config.freeByte s.trace.length) with
  | none => exact step_of_readFailed block req (.inl mode) answer
  | some b =>
    have stored : ByteStored s r b _ := ⟨req, answer, room, rfl⟩
    rw [step_of_read block, stepRead_of_modeR req mode]
    refine ⟨_, readOne_of_stored stored, ?_⟩
    rw [afterByteR_eq, stored.count]
    exact ⟨rfl, stored.read_eq, by rw [stored.eq_update]⟩

/-- Settles O27, by the answer of `ReadByte`. -/
theorem readTerminatorStep : Obligations.ReadTerminatorStep := by
  intro s r block req mode room
  cases answer : s.env.byte.headD (Config.freeByte s.trace.length) with
  | none => exact step_of_readFailed block req (.inr mode) answer
  | some b =>
    have stored : ByteStored s r b _ := ⟨req, answer, room, rfl⟩
    rw [step_of_read block, stepRead_of_modeT req mode]
    refine ⟨_, readOne_of_stored stored, ?_⟩
    rw [afterByteT_eq, stored.count]
    exact ⟨rfl, stored.read_eq, by rw [stored.eq_update]⟩

end step

/-! ### The failures of the read loop -/

/-- With a failure code in `ERR` the step in `DEASSERT` returns in `FAILED`, whether or not a request is latched (R90,
R121). -/
theorem step_of_failure {s : State} (block : BlockIn .deassert s) (failure : s.err ≠ FailCode.none.code) :
    step s = .next { s with
      st := Phase.failed.code, valid := false, matched := false, frameOut := false,
      trace := s.trace ++ [.setLine .frame (!s.cfg.frameAssertLevel)] } := by
  obtain ⟨hp, hf, hhost⟩ := block
  exact ((step_of_no_input hhost).trans (blockStep_of_phase hp hf)).trans (stepDeassert_of_failure failure)

/-- A failed `ReadByte` ends the transaction two steps later with nothing stored (R103). -/
theorem run_of_readFailed {s : State} {r : Request} (block : BlockIn .read s) (req : s.req = some r)
    (mode : r.mode = modeR ∨ r.mode = modeT) (answer : s.byteAnswer = none) : run 2 s = .next
      { s with
        st := 9#4, err := 6#4, valid := false, matched := false, frameOut := false
        env := { s.env with byte := s.env.byte.tail }
        trace := s.trace ++ [.readByte (s.cfg.tByte.at r.policy) none] ++
          [.setLine .frame (!s.cfg.frameAssertLevel)] } := by
  have first := step_of_readFailed block req mode answer
  obtain ⟨-, hf, hhost⟩ := block
  exact run_trans (run_one first)
    (run_one (step_of_failure ⟨rfl, hf, hhost⟩ (show FailCode.readTruncated.code ≠ _ by decide)))

/-- In `READ` the invariant says that a byte of the latched request is to come. -/
theorem Inv.reading {s : State} {r : Request} (inv : Inv s) (block : BlockIn .read s) (req : s.req = some r) :
    Reading r s := by
  obtain ⟨hp, -⟩ := block
  obtain ⟨r', run, -, -, reading⟩ := inv.facts hp
  obtain rfl := Option.some.inj (run.req.symm.trans req)
  exact reading

theorem Reading.mode {s : State} {r : Request} (h : Reading r s) : r.mode = modeR ∨ r.mode = modeT := by
  rcases h with ⟨mode, -⟩ | ⟨mode, -⟩ | ⟨mode, -⟩
  · exact .inl mode
  · exact .inr mode
  · exact .inr mode

/-- Settles O33: the failed read raises `READ_TRUNCATED`, and `DEASSERT` returns in `FAILED`. -/
theorem failedReadTruncates : Obligations.FailedReadTruncates := by
  intro s inv block answer
  have ⟨hp, _, _⟩ := block
  obtain ⟨r, run, -, -, reading⟩ := inv.facts hp
  exact ⟨_, run_of_readFailed block run.req reading.mode answer, rfl, rfl, rfl, rfl, rfl, rfl, rfl⟩

/-- Settles O34: the byte that fills the buffer raises `BUFFER_OVERFLOW`, and `DEASSERT` returns in `FAILED`. -/
theorem unfinishedFullBufferOverflows : Obligations.UnfinishedFullBufferOverflows := by
  intro s r b block req mode unseen full answer
  have first := readTerminatorStep s r block req mode (by omega)
  simp only [answer] at first
  obtain ⟨t, hstep, count, resp, ht⟩ := first
  rw [if_neg (by simp [full]), if_pos ⟨unseen, full⟩, unseen, Bool.false_or] at ht
  obtain ⟨-, hf, hhost⟩ := block
  have block' : BlockIn .deassert t := by
    rw [ht]
    exact ⟨rfl, hf, hhost⟩
  have code : t.err = FailCode.bufferOverflow.code := by rw [ht]; rfl
  have second := step_of_failure block' (by rw [code]; decide)
  refine ⟨_, run_trans (run_one hstep) (run_one second), code, rfl, rfl, count.trans full, (resp _).trans (if_pos rfl),
    ?_, ?_, ?_⟩
  · rw [ht]
  · rw [ht]
  · rw [ht]
    simp

/-! ### The bound on the loop -/

/-- The count at which the read loop of `r` is over at the latest (R109). -/
def readLimit (c : Params) (r : Request) : Nat := if r.mode = modeR then r.n.toNat else c.cap

theorem Reading.lt_readLimit {s : State} {r : Request} (h : Reading r s) : s.count.toNat < readLimit s.cfg r := by
  have other : modeT ≠ modeR := by decide
  rcases h with ⟨mode, more, -⟩ | ⟨mode, room, -⟩ | ⟨mode, room, -⟩
  · rwa [readLimit, if_pos mode]
  · rwa [readLimit, mode, if_neg other]
  · rwa [readLimit, mode, if_neg other]

/-- A move from `READ` ends the loop, or it has stored one more byte. -/
theorem BlockMove.of_read {s t : State} {q : Phase} (h : BlockMove s .read q t) :
    q = .deassert ∨ (q = .read ∧ t.count.toNat = s.count.toNat + 1) := by
  cases h with
  | readFailed | countReached | trailing | overflow => exact .inl rfl
  | countAgain _ stored => exact .inr ⟨rfl, stored.count⟩
  | termAgain _ stored => exact .inr ⟨rfl, by simp [stored.count]⟩

/-- From `READ` the loop is over after at most as many steps as bytes may still come, by induction on these. -/
theorem read_ends {s : State} {r : Request} {left : Nat} (inv : Inv s) (block : BlockIn .read s)
    (req : s.req = some r) (limit : readLimit s.cfg r = s.count.toNat + left) :
    ∃ k t, run k s = .next t ∧ t.phase = some .deassert ∧ k ≤ left := by
  induction left generalizing s with
  | zero => exact absurd limit (inv.reading block req).lt_readLimit.ne'
  | succ left ih =>
    obtain ⟨hp, hf, hhost⟩ := block
    obtain ⟨t, hblock⟩ := blockStep_progress inv hf
    have hstep := (step_of_no_input hhost).trans hblock
    obtain ⟨q, hq, move⟩ := blockStep_move hp rfl hblock
    rcases move.of_read with rfl | ⟨rfl, count⟩
    · exact ⟨1, t, run_one hstep, hq, by omega⟩
    · have block' : BlockIn .read t :=
        ⟨hq, (blockStep_end hblock).fault_eq.trans hf, (blockStep_host_eq hblock).trans hhost⟩
      obtain ⟨k, u, hrun, hu, hk⟩ := ih (blockStep_keeps_inv inv hblock) block' (move.req_eq.trans req)
        (by rw [(blockStep_end hblock).traceExtends.cfg, limit, count]; omega)
      exact ⟨k + 1, u, (run_succ k hstep).trans hrun, hu, by omega⟩

/-- Settles O43: what may still come in `READ` is bounded by `N` or by `CAP`. -/
theorem readingEnds : Obligations.ReadingEnds := by
  intro s r inv block req
  exact read_ends inv block req (Nat.add_sub_of_le (inv.reading block req).lt_readLimit.le).symm

end Sys2Proof.Machine
end

section
/-! SUPPORT. The termination laws of the read loop (R107, R108). From the end of the long wait on no step looks at
`ACK1_TO`, so that the transaction takes the steps of one whose short wait was answered too. -/

namespace Sys2Proof.Machine

/-! ### The steps behind the waits and ACK1_TO -/

/-- The state with another `ACK1_TO` and all else the same. -/
def State.withAck1TO (v : Bool) (s : State) : State := { s with ack1TO := v }

/-- A read of a byte leaves `ACK1_TO` as it is, if its continuation does. -/
theorem readOne_withAck1TO {r : Request} {done : Byte → State → State} {s t : State} (req : s.req = some r)
    (v : Bool) (hdone : ∀ b x, done b (x.withAck1TO v) = (done b x).withAck1TO v) (h : readOne r done s = .next t) :
    readOne r done (s.withAck1TO v) = .next (t.withAck1TO v) := by
  rcases readOne_cases h with ⟨answer, rfl⟩ | ⟨b, answer, room, rfl⟩
  · simp only [readOne, show (s.withAck1TO v).byteAnswer = none from answer]
    rfl
  · rw [← hdone]
    exact readOne_of_stored (s := s.withAck1TO v) ⟨req, answer, room, rfl⟩

theorem afterByteR_withAck1TO (r : Request) (s : State) (v : Bool) :
    afterByteR r (s.withAck1TO v) = (afterByteR r s).withAck1TO v := by
  rw [afterByteR_eq, afterByteR_eq]
  rfl

theorem afterByteT_withAck1TO (b : Byte) (s : State) (v : Bool) :
    afterByteT b (s.withAck1TO v) = (afterByteT b s).withAck1TO v := by
  rw [afterByteT_eq, afterByteT_eq]
  rfl

theorem stepRead_withAck1TO {s t : State} (h : stepRead s = .next t) (v : Bool) :
    stepRead (s.withAck1TO v) = .next (t.withAck1TO v) := by
  obtain ⟨r, req, ⟨mode, hread⟩ | ⟨mode, hread⟩⟩ := stepRead_cases h
  · rw [stepRead_of_modeR (s := s.withAck1TO v) req mode]
    exact readOne_withAck1TO req v (fun _ x => afterByteR_withAck1TO r x v) hread
  · rw [stepRead_of_modeT (s := s.withAck1TO v) req mode]
    exact readOne_withAck1TO req v (fun b x => afterByteT_withAck1TO b x v) hread

theorem stepDeassert_withAck1TO {s t : State} (h : stepDeassert s = .next t) (v : Bool) :
    stepDeassert (s.withAck1TO v) = .next (t.withAck1TO v) := by
  obtain ⟨q, move⟩ := stepDeassert_move h
  cases move with
  | succeeded success check => exact stepDeassert_of_success (s := s.withAck1TO v) success check
  | failed failure => exact stepDeassert_of_failure (s := s.withAck1TO v) failure

/-- From the read loop on a block step is made with any `ACK1_TO`, and leaves that as it is. -/
theorem blockStep_withAck1TO {s t : State} {p : Phase} (hp : s.phase = some p) (behind : p.rank ≤ Phase.read.rank)
    (h : blockStep s = .next t) (v : Bool) : blockStep (s.withAck1TO v) = .next (t.withAck1TO v) := by
  obtain ⟨-, -, hf⟩ := blockStep_starts h
  rw [blockStep_of_phase hp hf] at h
  rw [blockStep_of_phase (s := s.withAck1TO v) hp hf]
  cases p with
  | idle | complete | failed =>
    cases h
    rfl
  | read => exact stepRead_withAck1TO h v
  | deassert => exact stepDeassert_withAck1TO h v
  | faDrive | faVerify | xmit | ackW1 | ackW2 => exact absurd behind (by decide)

/-- A block step never leads to an earlier state of the machine. -/
theorem blockStep_rank_le {s t : State} {p : Phase} (hp : s.phase = some p) (h : blockStep s = .next t) :
    ∃ q, t.phase = some q ∧ q.rank ≤ p.rank := by
  obtain ⟨p', hp', -, ⟨-, rfl⟩ | ⟨q, move⟩⟩ := blockStep_cases h
  · exact ⟨p, hp, le_rfl⟩
  · obtain rfl : p = p' := Option.some.inj (hp.symm.trans hp')
    refine ⟨q, move.phase_eq hp, ?_⟩
    rcases move.descends with later | ⟨rfl, -⟩
    · exact later.le
    · exact le_rfl

/-- From the read loop on a run is made with any `ACK1_TO`, and leaves that as it is. -/
theorem run_withAck1TO {s t : State} {p : Phase} {k : Nat} (hp : s.phase = some p)
    (behind : p.rank ≤ Phase.read.rank) (hhost : s.host = []) (h : run k s = .next t) (v : Bool) :
    run k (s.withAck1TO v) = .next (t.withAck1TO v) := by
  induction k generalizing s p with
  | zero =>
    cases h
    rfl
  | succ k ih =>
    obtain ⟨⟨⟩, -⟩ | ⟨_, u, ⟨⟩, hstep, hrun⟩ := run_cases h
    rw [step_of_no_input hhost] at hstep
    obtain ⟨q, hq, notEarlier⟩ := blockStep_rank_le hp hstep
    have hstep' : step (s.withAck1TO v) = .next (u.withAck1TO v) :=
      (step_of_no_input (s := s.withAck1TO v) hhost).trans (blockStep_withAck1TO hp behind hstep v)
    exact (run_succ k hstep').trans (ih hq (notEarlier.trans behind) ((blockStep_host_eq hstep).trans hhost) hrun)

/-! ### The read loop behind the hit of the long wait -/

/-- A `VALIDATE` is a fixed-count read (R69, R83). -/
theorem RequestLegal.mode_of_validate {c : Params} {r : Request} (h : RequestLegal c r)
    (kind : r.kind = kindValidate) : r.mode = modeR := by
  have other : kindValidate ≠ kindExec := by decide
  rcases h.2 with ⟨hk, -⟩ | ⟨hk, -⟩ | ⟨hk, -⟩ | ⟨-, mode, -⟩
  · exact absurd (kind.symm.trans hk) other
  · exact absurd (kind.symm.trans hk) other
  · exact absurd (kind.symm.trans hk) other
  · exact mode

/-- A fixed-count request asks for a byte at least (R68). -/
theorem RequestLegal.count_pos {c : Params} {r : Request} (h : RequestLegal c r) (mode : r.mode = modeR) :
    1 ≤ r.n.toNat := by
  rcases h.2 with ⟨-, hm, -⟩ | ⟨-, -, hn, -⟩ | ⟨-, hm⟩ | ⟨-, -, hn⟩
  · exact absurd (mode.symm.trans hm) (by decide)
  · exact hn
  · exact absurd (mode.symm.trans hm) (by decide)
  · rw [hn]
    decide

/-- In the long wait a transaction is on its course, but that its short wait may have timed out. -/
theorem Inv.onCourse_of_ackW2 {s : State} {r : Request} (inv : Inv s) (block : BlockIn .ackW2 s)
    (req : s.req = some r) :
    RequestLegal s.cfg r ∧
      OnCourse s.cfg r s.precheckWarn .ackW2 s.env s.trace [] false (s.withAck1TO false) := by
  obtain ⟨hp, hf, hhost⟩ := block
  obtain ⟨r', run, nothing, -⟩ := inv.facts hp
  obtain rfl := Option.some.inj (run.req.symm.trans req)
  obtain ⟨b, hframe⟩ := run.frame
  have frame (i : Fin 4) : (s.withAck1TO false).readFrame i = (frameCells r' b).read i :=
    congrArg (fun m : Memory => m.read i) hframe
  have empty : s.resp = [] := by simpa [nothing.count] using inv.resp
  exact ⟨run.legal, {
    st := (State.phase_eq_some.mp hp).2
    err := nothing.err
    fault := hf
    host := hhost
    cfg := rfl
    req := req
    frame1 := frame 1
    frame2 := frame 2
    frame3 := frame 3
    count := congrArg BitVec.toNat nothing.count
    resp := fun i => congrArg (fun m : Memory => m.read i) empty
    sawTerm := nothing.sawTerm
    matched := run.matched
    ack1TO := rfl
    ack2TO := nothing.ack2TO
    precheckWarn := rfl
    trace := rfl
    env := ⟨_, rfl⟩ }⟩

/-- The hit of the long wait begins the read loop (R96, R97). The steps from there on are those of a state on its
course, whose `ACK1_TO` alone may differ. -/
theorem run_of_longWaitHit {s : State} {r : Request} (inv : Inv s) (block : BlockIn .ackW2 s) (req : s.req = some r)
    (answer : s.lineAnswer .ack = false) :
    ∃ e tr u, e.byte = s.env.byte ∧ OnCourse s.cfg r s.precheckWarn .read e tr [] false u ∧
      ∀ k t, run k u = .next t → run (k + 1) s = .next (t.withAck1TO s.ack1TO) := by
  obtain ⟨-, waiting⟩ := inv.onCourse_of_ackW2 block req
  obtain ⟨hp, hf, hhost⟩ := block
  have reading := (waiting.afterPoll (l := .ack) answer).goto .read
  have hstep : step s = .next ((afterPoll .ack s).goto .read) := by
    rw [step_of_no_input hhost, blockStep_of_phase hp hf]
    simp only [stepAckW2, ackAssertLevel, pollIter_hit answer]
  refine ⟨s.env.dropLine .ack, _, _, rfl, reading, fun k t hrun => ?_⟩
  exact (run_succ k hstep).trans (run_withAck1TO reading.phase le_rfl reading.host hrun s.ack1TO)

/-- A failed byte read ends the transaction with the bytes received before it (R103). -/
theorem OnCourse.truncated {c : Params} {r : Request} {warn saw : Bool} {e : Env} {tr : List Event} {got : List Byte}
    {s : State} {rest : List (Option Byte)} (h : OnCourse c r warn .read e tr got saw s)
    (given : e.byte = none :: rest) (mode : r.mode = modeR ∨ r.mode = modeT) :
    ∃ t, run 2 s = .next t ∧ t.st = 9#4 ∧ t.err = 6#4 ∧ t.valid = false ∧ t.count.toNat = got.length ∧
      ∀ i : Nat, t.resp.read i = got[i]? :=
  ⟨_, run_of_readFailed ⟨h.phase, h.fault, h.host⟩ h.req mode (h.byteAnswer given), rfl, rfl, rfl, h.count, h.resp⟩

/-- A read of the bytes before the terminator, the terminator and the byte behind it, and the end of the transaction
(R105). -/
theorem OnCourse.readToTerm {c : Params} {r : Request} {warn m : Bool} {e : Env} {tr : List Event} {s : State}
    {s0 : List Byte} {b : Byte} {rest : List (Option Byte)} (h : OnCourse c r warn .read e tr [] false s)
    (given : e.byte = (s0 ++ [termByte, b]).map some ++ rest) (mode : r.mode = modeT) (noTerm : termByte ∉ s0)
    (room : s0.length + 2 ≤ c.cap) (check : CheckLeaves r (s0 ++ [termByte, b]) m) :
    ∃ t tr', run (s0.length + 3) s = .next t ∧ Completed warn tr' (s0 ++ [termByte, b]) true m rest t := by
  rw [List.map_append, List.append_assoc] at given
  obtain ⟨u, hbefore, before⟩ := h.readOn given (by simp; omega) (.inr ⟨mode, noTerm⟩)
  obtain ⟨v, hterm, seen⟩ := before.moreToTerm rfl mode (by simp; omega) rfl
  obtain ⟨w, htrail, read⟩ := seen.trailing rfl mode (by simp; omega) rfl
  have got : [] ++ s0 ++ [termByte] ++ [b] = s0 ++ [termByte, b] := by simp
  rw [got] at read
  obtain ⟨t, hend, done⟩ := read.finish check
  exact ⟨t, _, run_trans hbefore (run_trans (run_one hterm) (run_trans (run_one htrail) (run_one hend))), done⟩

/-! ### The laws -/

/-- Settles O42: the loop reads to the byte behind the terminator, and a mode `T` request has no check. -/
theorem terminatorLaw : Obligations.TerminatorLaw := by
  intro s r s0 b rest inv block req mode answer noTerm room given
  obtain ⟨legal, -⟩ := inv.onCourse_of_ackW2 block req
  obtain ⟨e, tr, u, hbyte, reading, runs⟩ := run_of_longWaitHit inv block req answer
  have kind : r.kind ≠ kindValidate := fun validate =>
    absurd (mode.symm.trans (legal.mode_of_validate validate)) (by decide)
  obtain ⟨t, tr', hrun, done⟩ := reading.readToTerm (hbyte.trans given) mode noTerm room (.inl ⟨kind, rfl⟩)
  exact ⟨_, runs _ t hrun, done.st, done.valid, done.count.trans (by simp), done.resp, done.unread⟩

section fixedCount
variable {s : State} {r : Request} {bs : List Byte} {rest : List (Option Byte)} (inv : Inv s)
  (block : BlockIn .ackW2 s) (req : s.req = some r) (mode : r.mode = modeR) (answer : s.lineAnswer .ack = false)
  (given : s.env.byte = bs.map some ++ none :: rest)
include inv block req mode answer given

/-- Bytes enough for the count are read up to it, and the transaction succeeds (R107). -/
theorem run_of_countReached (kind : r.kind = kindExec) (enough : r.n.toNat ≤ bs.length) :
    ∃ t, run (r.n.toNat + 2) s = .next t ∧ t.st = 8#4 ∧ t.valid = true ∧ t.count.toNat = r.n.toNat ∧
      ∀ i : Nat, t.resp.read i = (bs.take r.n.toNat)[i]? := by
  obtain ⟨legal, -⟩ := inv.onCourse_of_ackW2 block req
  obtain ⟨e, tr, u, hbyte, reading, runs⟩ := run_of_longWaitHit inv block req answer
  have length : (bs.take r.n.toNat).length = r.n.toNat := List.length_take_of_le enough
  rw [← hbyte, ← List.take_append_drop r.n.toNat bs, List.map_append, List.append_assoc] at given
  have unchecked : CheckLeaves r (bs.take r.n.toNat) false := .inl ⟨by rw [kind]; decide, rfl⟩
  obtain ⟨t, hrun, done⟩ :=
    reading.readCount given mode length (legal.count_pos mode) (legal.count_le mode) unchecked
  rw [length] at hrun
  exact ⟨_, runs _ t hrun, done.st, done.valid, done.count.trans length, done.resp⟩

/-- Bytes short of the count are all read, and the read that fails behind them ends the transaction (R103, R107). -/
theorem run_of_countShort (short : bs.length < r.n.toNat) :
    ∃ t, run (bs.length + 3) s = .next t ∧ t.st = 9#4 ∧ t.err = 6#4 ∧ t.valid = false ∧
      t.count.toNat = bs.length ∧ ∀ i : Nat, t.resp.read i = bs[i]? := by
  obtain ⟨legal, -⟩ := inv.onCourse_of_ackW2 block req
  obtain ⟨e, tr, u, hbyte, reading, runs⟩ := run_of_longWaitHit inv block req answer
  have room : bs.length < s.cfg.cap := short.trans_le (legal.count_le mode)
  obtain ⟨v, hread, before⟩ :=
    reading.readOn (hbyte.trans given) (by simpa using room) (.inl ⟨mode, by simpa using short⟩)
  obtain ⟨t, hfail, st, err, valid, count, resp⟩ := before.truncated rfl (.inl mode)
  exact ⟨_, runs _ t (run_trans hread hfail), st, err, valid, count, resp⟩

end fixedCount

/-- The hit of the short wait ends a transaction that expects no byte (R95, R107). -/
theorem run_of_writeHit {s : State} {r : Request} (inv : Inv s) (block : BlockIn .ackW1 s) (req : s.req = some r)
    (mode : r.mode = modeW) (answer : s.lineAnswer .ack = false) :
    ∃ t, run 2 s = .next t ∧ t.st = 8#4 ∧ t.valid = true ∧ t.count = 0#16 ∧ t.env.byte = s.env.byte := by
  obtain ⟨hp, hf, hhost⟩ := block
  obtain ⟨r', running, nothing, noTimeout, -⟩ := inv.facts hp
  obtain rfl := Option.some.inj (running.req.symm.trans req)
  have first : step s = .next ((afterPoll .ack s).goto .deassert) := by
    rw [step_of_no_input hhost, blockStep_of_phase hp hf]
    simp only [stepAckW1, req, ackAssertLevel, pollIter_hit answer]
    simp [endShortWait, mode, noTimeout]
  have settling : BlockIn .deassert ((afterPoll .ack s).goto .deassert) :=
    ⟨State.phase_of (State.phase_eq_some.mp hp).1 rfl, hf, hhost⟩
  have second := deassertSettlesTheResult _ r' 0#8 settling req
    fun _ kind => absurd kind (running.legal.kind_of_modeW mode)
  rw [if_pos (by exact nothing.err)] at second
  exact ⟨_, run_trans (run_one first) (run_one second), rfl, rfl, nothing.count, rfl⟩

/-- Settles O41, by the number of bytes given and the count, and in mode `W` by the short wait. -/
theorem fixedCountTermination : Obligations.FixedCountTermination :=
  ⟨fun _ _ _ _ inv block req kind mode answer given =>
      ⟨run_of_countReached inv block req mode answer given kind, run_of_countShort inv block req mode answer given⟩,
    fun _ _ inv block req mode answer => run_of_writeHit inv block req mode answer⟩

end Sys2Proof.Machine
end

section
/-! SUPPORT. The byte behind the terminator (R105, R112): the two steps that store it and end the transaction, with
their whole final state, in which the byte stands in its own cell of `RESP` and in TRACE alone. -/

namespace Sys2Proof.Machine

/-- The state with the coming byte `b` and the answers `rest` behind it, and all else the same. -/
def State.offering (b : Byte) (rest : List (Option Byte)) (s : State) : State :=
  { s with env := { s.env with byte := some b :: rest } }

theorem State.offering_eq_self {s : State} {b : Byte} {rest : List (Option Byte)}
    (given : s.env.byte = some b :: rest) : s.offering b rest = s := by
  rw [State.offering, ← given]

section trailing
variable {s : State} {r : Request}

theorem afterByteT_of_seen (b : Byte) (seen : s.sawTerm = true) : afterByteT b s = s.goto .deassert := by
  rw [afterByteT, if_pos seen]

/-- The step that stores the byte behind the terminator, whatever that byte is (R105). -/
theorem step_of_trailing (block : BlockIn .read s) (req : s.req = some r) (mode : r.mode = modeT)
    (seen : s.sawTerm = true) (room : s.count.toNat < s.cfg.cap) (b : Byte) (rest : List (Option Byte)) :
    step (s.offering b rest) =
      .next ((((s.offering b rest).callReadByte (r.tByte s.cfg)).push b).goto .deassert) := by
  have stored : ByteStored (s.offering b rest) r b _ := ⟨req, rfl, room, rfl⟩
  calc step (s.offering b rest)
      = stepRead (s.offering b rest) := step_of_read block
    _ = readOne r afterByteT (s.offering b rest) := stepRead_of_modeT req mode
    _ = .next (afterByteT b (((s.offering b rest).callReadByte (r.tByte s.cfg)).push b)) := readOne_of_stored stored
    _ = _ := congrArg _ (afterByteT_of_seen b seen)

/-- `DEASSERT` settles the success of a request other than a `VALIDATE` without a look at `RESP` (R90, R110). -/
theorem step_of_uncheckedSuccess (block : BlockIn .deassert s) (req : s.req = some r)
    (success : s.err = FailCode.none.code) (kind : r.kind ≠ kindValidate) :
    step s = .next { frameReleased s with valid := true, st := Phase.complete.code } := by
  have check : matchAfter s = some s.matched :=
    (matchAfter_eq (b := 0#8) req fun validate => absurd validate kind).trans (congrArg some (if_neg kind))
  obtain ⟨hp, hf, hhost⟩ := block
  exact ((step_of_no_input hhost).trans (blockStep_of_phase hp hf)).trans (stepDeassert_of_success success check)

/-- The end of a transaction whose last byte `b` is the one behind the terminator, from the state `s` that waits for
it; `rest` are the answers it leaves (R90, R101, R105). -/
def trailingEnd (r : Request) (b : Byte) (rest : List (Option Byte)) (s : State) : State :=
  { s with
    resp := s.resp.write s.count.toNat b, count := s.count + 1#16, env := { s.env with byte := rest }
    valid := true, st := Phase.complete.code, frameOut := false
    trace := s.trace ++ [.readByte (r.tByte s.cfg) (some b)] ++ [.setLine .frame (!s.cfg.frameAssertLevel)] }

/-- Two steps from a state of the invariant that waits for the byte behind the terminator, whatever that byte is. A
mode `T` request is no `VALIDATE`, so that nothing looks at the byte (R112). -/
theorem run_of_trailing (inv : Inv s) (block : BlockIn .read s) (req : s.req = some r) (mode : r.mode = modeT)
    (seen : s.sawTerm = true) (b : Byte) (rest : List (Option Byte)) :
    run 2 (s.offering b rest) = .next (trailingEnd r b rest s) := by
  obtain ⟨room, -⟩ := (inv.reading block req).of_modeT_seen mode seen
  have first := step_of_trailing block req mode seen room b rest
  obtain ⟨hp, hf, hhost⟩ := block
  obtain ⟨r', running, success, -⟩ := inv.facts hp
  obtain rfl := Option.some.inj (running.req.symm.trans req)
  have kind : r'.kind ≠ kindValidate := fun validate =>
    absurd (mode.symm.trans (running.legal.mode_of_validate validate)) (by decide)
  have settling : BlockIn .deassert ((((s.offering b rest).callReadByte (r'.tByte s.cfg)).push b).goto .deassert) :=
    ⟨State.phase_of (State.phase_eq_some.mp hp).1 rfl, hf, hhost⟩
  exact run_trans (run_one first) (run_one (step_of_uncheckedSuccess settling req success kind))

theorem trailingEnd_count (room : s.count.toNat < s.cfg.cap) (b : Byte) (rest : List (Option Byte)) :
    (trailingEnd r b rest s).count.toNat = s.count.toNat + 1 :=
  State.push_count_toNat b room

theorem trailingEnd_read (b : Byte) (rest : List (Option Byte)) (a : Nat) :
    (trailingEnd r b rest s).resp.read a = if a = s.count.toNat then some b else s.resp.read a :=
  Memory.read_write ..

end trailing

/-- Settles O35: the final state holds the trailing byte in its own cell of `RESP` and in TRACE alone. -/
theorem trailingByteIsNotExamined : Obligations.TrailingByteIsNotExamined := by
  intro s r b c rest inv block req mode seen given
  have ends := run_of_trailing inv block req mode seen
  have endsWith_b := ends b rest
  rw [State.offering_eq_self given] at endsWith_b
  obtain ⟨room, -⟩ := (inv.reading block req).of_modeT_seen mode seen
  have cell : (trailingEnd r b rest s).count.toNat - 1 = s.count.toNat := by rw [trailingEnd_count room]; rfl
  refine ⟨_, _, endsWith_b, ends c rest, rfl, rfl, rfl, ?_, ?_, ?_⟩
  · rw [cell, trailingEnd_read, if_pos rfl]
  · rw [cell, trailingEnd_read, if_pos rfl]
  · intro a other
    rw [cell] at other
    rw [trailingEnd_read, trailingEnd_read, if_neg other, if_neg other]

end Sys2Proof.Machine
end

section
/-! SUPPORT. The host's duties (R127) and the clock (R123): from the invariant every slot of a host that keeps its
duties is answered with a next state; and a step reads the clock at most once, as its second port call, so that the
answers of a run never fall and pass every bound. -/

namespace Sys2Proof.Machine

/-! ### A host that keeps its duties -/

section duty
variable {s : State} {rest : List HostInput} (inv : Inv s) (hf : s.fault = false)
include inv hf

theorem step_progress_of_idle (hhost : s.host = .idle :: rest) : ∃ t, step s = .next t := by
  rw [step_of_input hhost]
  exact blockStep_progress (inv.setHost rest s.replies) hf

/-- A wait ends or the block has its step (R133). -/
theorem step_progress_of_await (hhost : s.host = .await :: rest) : ∃ t, step s = .next t := by
  obtain ⟨p, hp, -⟩ := inv.phase
  rw [step_of_await hhost hp]
  split
  · exact ⟨_, rfl⟩
  · exact blockStep_progress inv hf

end duty

/-- A ready block accepts whatever word is presented, legal or not (R75). -/
theorem step_progress_of_request {s : State} {w : Word64} {rest : List HostInput} (ready : Ready s)
    (hhost : s.host = .request w :: rest) : ∃ t, step s = .next t := by
  obtain ⟨r, b0, legal, presented⟩ := presentWord_eq_present w { s with host := rest }
  rw [step_of_request hhost, presented, present_ready (s := { s with host := rest }) ready]
  exact ⟨_, rfl⟩

/-- Settles O48, by the host's slots: its two duties admit a request and a read of `RESP`. -/
theorem onlyTheHostCanCauseAModelFault : Obligations.OnlyTheHostCanCauseAModelFault := by
  intro s inv hf ⟨presentsWhenQuiescent, readsBelowCount⟩
  cases hhost : s.host with
  | nil =>
    rw [step_of_no_input hhost]
    exact blockStep_progress inv hf
  | cons slot rest =>
    cases slot with
    | request w =>
      obtain ⟨p, hp, quiescent⟩ := presentsWhenQuiescent w rest hhost
      exact step_progress_of_request ⟨p, hp, quiescent, hf⟩ hhost
    | readResp i =>
      obtain ⟨b, -, hstep⟩ := (hostReadOfResp s i rest inv hhost).1 (readsBelowCount i rest hhost)
      exact ⟨_, hstep⟩
    | reset | readStatus => exact ⟨_, step_of_input hhost⟩
    | idle => exact step_progress_of_idle inv hf hhost
    | await => exact step_progress_of_await inv hf hhost

/-! ### The clock answers of TRACE -/

@[simp] theorem nows_append (tr evs : List Event) : nows (tr ++ evs) = nows tr ++ nows evs :=
  List.filterMap_append

/-- The last answer of `Now()` is the last of the answers, 0 where there is none. -/
theorem lastNow_eq_getLast (tr : List Event) : lastNow tr = (nows tr).getLast?.getD 0 := by
  induction tr using List.reverseRecOn with
  | nil => rfl
  | append_singleton tr e ih => cases e <;> simp [ih, nows]

theorem lastNow_append_silent (tr : List Event) {evs : List Event} (silent : nows evs = []) :
    lastNow (tr ++ evs) = lastNow tr := by
  rw [lastNow_eq_getLast, lastNow_eq_getLast, nows_append, silent, List.append_nil]

section sampled
variable (tr : List Event) (n : Nat)

/-- A clock read behind another call adds its answer and no other. -/
theorem nows_sampled {e : Event} (silent : nows [e] = []) : nows (tr ++ [e, .now n]) = nows tr ++ [n] := by
  rw [← List.singleton_append, nows_append, nows_append, silent]
  rfl

theorem lastNow_sampled (e : Event) : lastNow (tr ++ [e, .now n]) = n := by
  rw [← List.singleton_append, ← List.append_assoc, lastNow_append_now]

end sampled

/-- Among answers that never fall the last one is the greatest. -/
theorem le_lastNow_of_mem {tr : List Event} (rising : (nows tr).Pairwise (· ≤ ·)) {n : Nat} (hn : n ∈ nows tr) :
    n ≤ lastNow tr := by
  rw [lastNow_eq_getLast, List.getLast?_eq_some_getLast (List.ne_nil_of_mem hn)]
  exact rising.rel_getLast hn

/-- A clock read that is the second call of a step is not below the last answer (R123, monotonicity). -/
theorem lastNow_le_secondNow (s : State) : lastNow s.trace ≤ secondNow s := Nat.le_add_right _ _

/-! ### What a step does with the clock -/

/-- A step does not read the clock, or it reads it once, as its second port call; a read takes one entry off the
clock's script (R123, R143). -/
inductive ClockStep (s t : State) : Prop
  | untouched {evs : List Event} (trace : t.trace = s.trace ++ evs) (silent : nows evs = [])
      (script : t.env.elapsed = s.env.elapsed)
  | sampled {e : Event} (trace : t.trace = s.trace ++ [e, .now (secondNow s)]) (silent : nows [e] = [])
      (script : t.env.elapsed = s.env.elapsed.tail)

/-- What follows the port calls leaves TRACE and the environment alone. -/
theorem ClockStep.congr_right {s t u : State} (h : ClockStep s t) (htrace : u.trace = t.trace)
    (henv : u.env = t.env) : ClockStep s u := by
  cases h with
  | untouched trace silent script => exact .untouched (htrace.trans trace) silent (henv ▸ script)
  | sampled trace silent script => exact .sampled (htrace.trans trace) silent (henv ▸ script)

theorem ClockStep.of_eq {s t : State} (htrace : t.trace = s.trace) (henv : t.env = s.env) : ClockStep s t :=
  .untouched (evs := []) (by rw [htrace, List.append_nil]) rfl (congrArg _ henv)

/-- The clock is read behind one other port call. -/
theorem ClockStep.callNow {s x : State} {e : Event} (htrace : x.trace = s.trace ++ [e]) (silent : nows [e] = [])
    (script : x.env.elapsed = s.env.elapsed) : ClockStep s x.callNow :=
  .sampled (by rw [State.callNow_second htrace (lastNow_append_silent s.trace silent) script]) silent
    (by rw [State.callNow_env, script])

theorem clockStep_afterPoll (l : Line) (s : State) : ClockStep s (afterPoll l s) :=
  .callNow (State.callReadLine_trace s l) rfl (by cases l <;> rfl)

theorem ByteStored.clockStep {s x : State} {r : Request} {b : Byte} (h : ByteStored s r b x) : ClockStep s x := by
  rw [h.eq]
  exact .untouched (State.callReadByte_trace ..) rfl rfl

theorem ShortWaitOver.clockStep {s x : State} (h : ShortWaitOver s x) : ClockStep s x := by
  obtain ⟨b, rfl⟩ := h.eq
  exact (clockStep_afterPoll .ack s).congr_right rfl rfl

/-- The clock is read by the assertion of the frame line, by an exchange that succeeds, and by every poll
(R85, R87, R93). -/
theorem BlockMove.clockStep {s t : State} {p q : Phase} (h : BlockMove s p q t) : ClockStep s t := by
  cases h with
  | drive =>
    exact (ClockStep.callNow (x := (s.callSetLine .frame s.cfg.frameAssertLevel).setFrameOut true)
      (State.callSetLine_trace ..) rfl rfl).congr_right rfl rfl
  | sent _ _ _ _ _ eq =>
    subst eq
    exact (ClockStep.callNow (State.callExchange_trace ..) rfl rfl).congr_right rfl rfl
  | verifyHit | verifyTimeout | verifyAgain => exact (clockStep_afterPoll .frame s).congr_right rfl rfl
  | shortWaitAgain | longWaitHit | longWaitTimeout | longWaitAgain =>
    exact (clockStep_afterPoll .ack s).congr_right rfl rfl
  | shortWaitFailed _ _ ended | written _ _ ended | waitLong _ _ ended => exact ended.clockStep.congr_right rfl rfl
  | notSent => exact .untouched (State.callExchange_trace ..) rfl rfl
  | readFailed => exact .untouched (State.callReadByte_trace ..) rfl rfl
  | countReached _ stored | countAgain _ stored | trailing _ stored => exact stored.clockStep.congr_right rfl rfl
  | overflow _ stored | termAgain _ stored => exact stored.clockStep.congr_right (by simp) (by simp)
  | succeeded | failed => exact .untouched (State.callSetLine_trace ..) rfl rfl

/-- Acceptance does not read the clock (R75, R84). -/
theorem accept_clockStep (r : Request) (b0 : Byte) (legal : Bool) (s : State) :
    ClockStep s (accept r b0 legal s) := by
  rcases accept_cases r b0 legal s with ⟨-, h⟩ | ⟨-, -, h⟩ | ⟨-, -, -, h⟩ | ⟨-, -, -, h⟩ <;> rw [h]
  · exact .of_eq rfl rfl
  · exact .untouched (State.callReady_trace _) rfl rfl
  · rw [precheck_eq]
    exact .untouched (List.append_assoc ..) rfl rfl
  · exact .untouched (State.callReady_trace _) rfl rfl

theorem step_clockStep {s t : State} (h : step s = .next t) : ClockStep s t := by
  /- Taking off the host's slot touches neither TRACE nor the clock. -/
  have of_slot {rest : List HostInput} (hs : ClockStep { s with host := rest } t) : ClockStep s t := by
    cases hs with
    | untouched trace silent script => exact .untouched trace silent script
    | sampled trace silent script => exact .sampled trace silent script
  rcases step_cases h with ⟨rest, hblock, -⟩ | ⟨-, rest, r, b0, legal, -, -, hpres⟩ | ⟨rest, -, rfl⟩ |
    ⟨rest, reply, -, rfl⟩ | ⟨rest, -, -, -, -, rfl⟩
  · obtain ⟨p, -, -, ⟨-, rfl⟩ | ⟨q, move⟩⟩ := blockStep_cases hblock
    · exact .of_eq rfl rfl
    · exact of_slot move.clockStep
  · obtain ⟨-, -, -, ⟨-, rfl⟩ | ⟨-, rfl⟩⟩ := present_cases hpres
    · exact of_slot (accept_clockStep r b0 legal _)
    · exact .of_eq rfl rfl
  · exact .of_eq rfl rfl
  · exact .of_eq rfl rfl
  · exact .of_eq rfl rfl

/-! ### Monotonicity -/

/-- Settles O52: the one answer a step may add is not below the last, which is the greatest so far. -/
theorem clockAnswersNeverFall : Obligations.ClockAnswersNeverFall := by
  intro s t rising hstep
  cases step_clockStep hstep with
  | untouched trace silent => rwa [trace, nows_append, silent, List.append_nil]
  | sampled trace silent =>
    rw [trace, nows_sampled _ _ silent, List.pairwise_append]
    refine ⟨rising, List.pairwise_singleton .., fun n hn m hm => ?_⟩
    obtain rfl := List.mem_singleton.mp hm
    exact (le_lastNow_of_mem rising hn).trans (lastNow_le_secondNow s)

theorem ClockStep.lastNow_le {s t : State} (h : ClockStep s t) : lastNow s.trace ≤ lastNow t.trace := by
  cases h with
  | untouched trace silent => rw [trace, lastNow_append_silent _ silent]
  | sampled trace =>
    rw [trace, lastNow_sampled]
    exact lastNow_le_secondNow s

theorem run_lastNow_le {s t : State} {k : Nat} (h : run k s = .next t) : lastNow s.trace ≤ lastNow t.trace := by
  induction k generalizing s with
  | zero => cases h; exact le_rfl
  | succ k ih =>
    obtain ⟨⟨⟩, -⟩ | ⟨_, u, ⟨⟩, hstep, hrun⟩ := run_cases h
    exact (step_clockStep hstep).lastNow_le.trans (ih hrun)

/-! ### Fairness -/

/-- How many clock answers can still come before one reaches `b`: those of the script, and one for each port call
until the unscripted clock has reached `b`. -/
def clockBudget (b : Nat) (s : State) : Nat := s.env.elapsed.length + (clockReaches b - s.trace.length)

/-- An unscripted clock that is read when the bound has fallen due has reached it (R123, fairness). -/
theorem le_secondNow_of_due {s : State} {b : Nat} (unscripted : s.env.elapsed = [])
    (due : clockReaches b ≤ s.trace.length) : b ≤ secondNow s := by
  have reached : clockReaches b ≤ (s.callReadLine .irq).trace.length := due.trans (by simp)
  rw [← nowAnswer_callReadLine .irq s]
  exact State.bound_le_nowAnswer unscripted ((le_max_left ..).trans reached) ((le_max_right ..).trans reached)

/-- A step that gives no answer leaves the budget; one that does brings an answer from `b` on, or uses some up. -/
theorem ClockStep.budget {s t : State} (h : ClockStep s t) (b : Nat) :
    b ≤ lastNow t.trace ∨
      clockBudget b t + (nows t.trace).length ≤ clockBudget b s + (nows s.trace).length := by
  cases h with
  | untouched trace silent script =>
    refine .inr ?_
    simp only [clockBudget, trace, script, nows_append, silent, List.length_append, List.length_nil]
    omega
  | sampled trace silent script =>
    simp only [clockBudget, script, trace, lastNow_sampled, nows_sampled _ _ silent, List.length_append,
      List.length_cons, List.length_nil]
    cases helapsed : s.env.elapsed with
    | nil =>
      by_cases due : clockReaches b ≤ s.trace.length
      · exact .inl (le_secondNow_of_due helapsed due)
      · simp only [List.tail_nil, List.length_nil]
        omega
    | cons d ds =>
      simp only [List.tail_cons, List.length_cons]
      omega

/-- A run with more clock answers than the budget has come to an answer from `b` on, and keeps it. -/
theorem run_reaches_bound {s t : State} {k b : Nat} (h : run k s = .next t)
    (enough : (nows s.trace).length + clockBudget b s < (nows t.trace).length) : b ≤ lastNow t.trace := by
  induction k generalizing s with
  | zero =>
    cases h
    omega
  | succ k ih =>
    obtain ⟨⟨⟩, -⟩ | ⟨_, u, ⟨⟩, hstep, hrun⟩ := run_cases h
    rcases (step_clockStep hstep).budget b with reached | less
    · exact reached.trans (run_lastNow_le hrun)
    · exact ih hrun (by omega)

/-- Settles O59: so many answers as the script is long and port calls are needed for the bound, and one more. -/
theorem clockOfEveryRunIsFair : Obligations.ClockOfEveryRunIsFair := by
  intro n b
  refine ⟨n + clockReaches b + 1, fun s t k script h calls => run_reaches_bound h ?_⟩
  have budget : clockBudget b s ≤ n + clockReaches b := by
    rw [clockBudget, script]
    omega
  omega

end Sys2Proof.Machine
end

section
/-! SUPPORT. Reset (R18, R130, R131): what the host's reset slot makes of any state, and that the state it leaves is
idle, can accept, and meets the invariant. -/

namespace Sys2Proof.Machine

/-! ### The state a reset leaves -/

section resetEvent
variable (s : State)

theorem resetEvent_phase : (resetEvent s).phase = some .idle := rfl

theorem resetEvent_frame_read (a : Nat) : (resetEvent s).frame.read a = none := Memory.read_nil a

theorem resetEvent_resp_read (a : Nat) : (resetEvent s).resp.read a = none := Memory.read_nil a

/-- Every field that `STATUS` packs is 0 after reset (R31, R130). -/
theorem resetEvent_status : (resetEvent s).status = 0#32 :=
  BitVec.eq_of_getLsbD_eq fun i hi => by
    rw [State.status_getLsbD]
    interval_cases i <;> rfl

/-- After reset the block is idle with `FAULT = 0`, so it can accept (R75). -/
theorem resetEvent_ready : Ready (resetEvent s) := ⟨.idle, resetEvent_phase s, rfl, rfl⟩

end resetEvent

/-! ### The reset slot -/

/-- Reset is taken in any state, busy, faulted or of a reserved code (R130). -/
theorem step_of_reset {s : State} {rest : List HostInput} (h : s.host = .reset :: rest) :
    step s = .next (resetEvent { s with host := rest }) :=
  step_of_input h

/-- Settles O9: the slot's step is `resetEvent`. Its byte spaces, its `STATUS` and its readiness have the lemmas
above; each other field is a reset value or is carried over. -/
theorem resetPutsEveryFieldAtItsResetValue : Obligations.ResetPutsEveryFieldAtItsResetValue := by
  intro s rest h
  refine ⟨resetEvent { s with host := rest }, step_of_reset h, rfl, rfl, rfl, rfl, rfl, rfl, rfl, rfl, rfl, rfl, rfl,
    rfl, ?frame, ?resp, ?dl, ?status, ?trace, ?cfg, ?env, ?host, ?ready⟩
  case frame => exact resetEvent_frame_read _
  case resp => exact resetEvent_resp_read _
  case status => exact resetEvent_status _
  case ready => exact resetEvent_ready _
  case dl | trace | cfg | env | host => rfl

/-- Settles O10: a reset state of any parameters is what reset makes of itself. -/
theorem resetStateMeetsInvariant : Obligations.ResetStateMeetsInvariant :=
  ⟨inv_resetEvent State.reset, fun c e h => inv_resetEvent { State.reset with cfg := c, env := e, host := h }⟩

end Sys2Proof.Machine
end
